-- ==== Sys2Proof/Word.lean ====
section
/-! DEFINITION. The fixed-width words of the block (00_scope R13: every value is unsigned, bit 0 is the least
significant). Registers whose width is a parameter (TW or AW bits) are natural numbers below 2 ^ width, see
notes/assumptions/2.md. -/

namespace Sys2Proof

/-- A byte on a port, 8 parallel bits, bit 7 the most significant (20_memory R62). -/
abbrev Byte := BitVec 8

/-- The unit stored in the ring: an 8-bit unsigned integer (00_scope, glossary). -/
abbrev Sample := BitVec 8

/-- One conversion result, a 10-bit unsigned integer 0..1023 (00_scope, glossary). -/
abbrev RawReading := BitVec 10

/-- A bus frame as one 24-bit value: byte0 in bits 23:16, byte1 in 15:8, byte2 in 7:0 (00_scope R13). -/
abbrev BusFrame := BitVec 24

/-- A one-bit code: `ctl_op` (format CTL) or `ctl_err` (format CRSP) (30_encoding R96, R97). -/
abbrev CodeBit := BitVec 1

end Sys2Proof
end

