-- ==== Sys2Proof/Config.lean ====
section
/-! DEFINITION. The implementation parameters (00_scope R11, R12), the inputs the environment brings to an edge
(10_state R40), and the one free value of the model: which edge comes next, with which inputs, where the schedule in
State does not say. -/

namespace Sys2Proof

/-- The parameters of 00_scope R11 that a rule of the block reads. The channel, sample width, raw width, frame length
and synchroniser depth are fixed there and are not parameters. -/
structure Config where
  /-- `AW`, the width of a ring index; the ring has `N = 2 ^ AW` slots. -/
  aw : Nat
  /-- `P` (`PERIOD_TICKS`), the period in cycles of `clk_t`. -/
  period : Nat
  /-- `TW`, the width of the time counter and of the deadline register. -/
  tw : Nat
  /-- `MEM_INIT`, the value of every ring slot after reset. -/
  memInit : Byte
  /-- `SW`, the width of the transport's status word; no rule depends on it. -/
  sw : Nat
deriving DecidableEq, Repr, Inhabited

/-- The default or reference value of each parameter (00_scope R11). `P` is OPEN in the spec; 1000 is its reference
value. DESIGN CHOICE, notes/assumptions/1.md. -/
def Config.default : Config :=
  { aw := 13, period := 1000, tw := 32, memInit := 0, sw := 8 }

/-- `N = 2 ^ AW`, the ring capacity in samples (00_scope R11). -/
def Config.slots (c : Config) : Nat := 2 ^ c.aw

/-- `2 ^ TW`, the modulus of `now` and `deadline` (10_state R21, R23). -/
def Config.timeModulus (c : Config) : Nat := 2 ^ c.tw

/-- `P = F_T * 125 us = F_T / 8000` for a `clk_t` of `fT` Hz (00_scope R11). -/
def Config.periodOf (fT : Nat) : Nat := fT / 8000

/-- The clock condition of 00_scope R12 (b): `F_T` is an integer multiple of 8000 Hz, so that `P` cycles are exactly
125 us. -/
def Config.exactClock (fT : Nat) : Bool := decide (fT % 8000 = 0)

/-- The input ports of the tick domain, as sampled at one active edge of `clk_t` (10_state R40). -/
structure TIn where
  /-- `ctl_valid`: the host presents a command. -/
  ctlValid : Bool
  /-- `ctl_op`: the command code, format CTL. -/
  ctlOp : CodeBit
  /-- `tb_ok`: the time base can be armed. -/
  tbOk : Bool
  /-- `bus_done`: the exchange has ended. -/
  busDone : Bool
  /-- `bus_err`: the exchange failed. -/
  busErr : Bool
  /-- `bus_rx0`, the byte received first. -/
  busRx0 : Byte
  /-- `bus_rx1`. -/
  busRx1 : Byte
  /-- `bus_rx2`, the byte received last. -/
  busRx2 : Byte
  /-- `bus_status`, the transport's error code; the port has `SW` wires. -/
  busStatus : Nat
deriving DecidableEq, Repr, Inhabited

/-- An edge of `clk_t` at which no command is presented and no answer arrives. -/
def TIn.quiet : TIn :=
  { ctlValid := false, ctlOp := 0, tbOk := true, busDone := false, busErr := false,
    busRx0 := 0, busRx1 := 0, busRx2 := 0, busStatus := 0 }

/-- What the environment brings to one active edge of `clk_c`: the input port `rd_addr`, whether the consumer samples
`pos_c` at this edge, and the two draws the spec leaves free there. No rule constrains a draw: a claim holds for every
value of it (notes/assumptions/5.md, 6.md). -/
structure CIn where
  /-- `rd_addr`; the port has `AW` wires. -/
  rdAddr : Nat
  /-- The consumer samples `pos_c` at this edge (POS, 41_ring_buffer R143). -/
  readPos : Bool
  /-- The draw of `H(c)` (41_ring_buffer R144): which of the codes held since the previous `clk_c` edge `sync1` takes. -/
  pick : Nat
  /-- The draw of a colliding read (20_memory R72): any byte. -/
  junk : Byte
deriving DecidableEq, Repr, Inhabited

/-- An edge of `clk_c` with `rd_addr = 0`, no sample of `pos_c`, and the draws `pick` and `junk` at 0: one example of the
environment's inputs, never a rule for the draws (notes/assumptions/5.md, 6.md, 22.md). -/
def CIn.quiet : CIn := { rdAddr := 0, readPos := false, pick := 0, junk := 0 }

/-- What happens next at the block's boundary (00_scope R8, R10). -/
inductive Event where
  /-- One active edge of `clk_t`: TICKDOM steps. -/
  | clkT (t : TIn)
  /-- One active edge of `clk_c`, ordered with every edge of `clk_t`: CONSDOM steps. -/
  | clkC (c : CIn)
  /-- An edge of each clock that fall within each other's setup and hold window (20_memory R71, R72). `tFirst` says
  which of the two the cursor crossing resolves as the earlier; the choice is free. -/
  | both (t : TIn) (c : CIn) (tFirst : Bool)
  /-- `rst_n` is asserted and released (70_reset_and_hazards R260). -/
  | reset
deriving DecidableEq, Repr, Inhabited

/-- FREE VALUE: the `k`-th event where the schedule in State has run out. "Any interleaving of `clk_t` edges and
`clk_c` edges is a run" (00_scope R10) and every input is the environment's (43_external_interfaces R217), so nothing
is known of it: a claim holds whatever it answers (notes/assumptions/3.md). -/
opaque Config.freeEvent : Nat → Event

end Sys2Proof
end

