-- ==== Sys2Proof/Syntax.lean ====
section
/-! DEFINITION. The operations of the block, one constructor per row of spec/opcode_table.json (30_encoding R103).
An operand that the encoding carries, or that the operation's rule lists under "Operands", is an argument; operands
that the rule takes from input ports or registers are read from State. -/

namespace Sys2Proof

/-- The encoded formats of 30_encoding R90, and `event` for the operations selected by an event (R99). -/
inductive Format where
  /-- The acquisition command, block to transport. -/
  | bustx
  /-- The conversion result, transport to block. -/
  | busrx
  /-- START or STOP, host to block. -/
  | ctl
  /-- The response code, block to host. -/
  | crsp
  /-- The write cursor, `clk_t` to `clk_c`. -/
  | gray
  /-- No bit encoding. -/
  | event
deriving DecidableEq, Repr, Inhabited

/-- One constructor per row of spec/opcode_table.json. -/
inductive Instr where
  /-- START, CTL code 1 (42_scheduler R172). -/
  | start
  /-- STOP, CTL code 0 (42_scheduler R173). -/
  | stop
  /-- RESP_OK, CRSP code 0 (30_encoding R97). -/
  | respOk
  /-- RESP_TIMER_ARM_FAILURE, CRSP code 1 (60_exceptions R232). -/
  | respTimerArmFailure
  /-- CMD_ACQ, the one BUSTX frame (30_encoding R92). -/
  | cmdAcq
  /-- RSP_ACQ, a BUSRX frame with its four fields (30_encoding R93). -/
  | rspAcq (u0 : BitVec 8) (u1 : BitVec 6) (rawHi : BitVec 2) (rawLo : BitVec 8)
  /-- CURSOR, a GRAY code of `AW` bits (30_encoding R98). -/
  | cursor (code : Nat)
  /-- TICK, both halves (42_scheduler R175, R176). -/
  | tick
  /-- ACQUIRE (40_codec R124). -/
  | acquire
  /-- ENCODE (40_codec R120). -/
  | encode
  /-- EXCHANGE (40_codec R121). -/
  | exchange
  /-- DECODE of the three response bytes (40_codec R122). -/
  | decode (rx0 rx1 rx2 : Byte)
  /-- TRUNCATE of a reading (40_codec R123). -/
  | truncate (raw : RawReading)
  /-- WRITE of a sample into the ring (41_ring_buffer R140). -/
  | write (sample : Sample)
  /-- POS (41_ring_buffer R143). -/
  | pos
  /-- RD of the slot `rd_addr` (41_ring_buffer R148). -/
  | rd (addr : Nat)
  /-- SYNC (41_ring_buffer R144). -/
  | sync
deriving DecidableEq, Repr, Inhabited

/-- The format column of the row. -/
def Instr.format : Instr → Format
  | .start => .ctl
  | .stop => .ctl
  | .respOk => .crsp
  | .respTimerArmFailure => .crsp
  | .cmdAcq => .bustx
  | .rspAcq _ _ _ _ => .busrx
  | .cursor _ => .gray
  | .tick => .event
  | .acquire => .event
  | .encode => .event
  | .exchange => .event
  | .decode _ _ _ => .event
  | .truncate _ => .event
  | .write _ => .event
  | .pos => .event
  | .rd _ => .event
  | .sync => .event

end Sys2Proof
end

