-- ==== Sys2Proof/WellFormed.lean ====
section
/-! DEFINITION. What the spec asks of a parameter set (00_scope R12) and of an operand of parametric width. -/

namespace Sys2Proof

/-- The constraints of 00_scope R12: (a) `AW >= 1`; (b) `P` is positive; (c) `TW >= 2` and `P < 2 ^ (TW - 2)`; (d)
`MEM_INIT` is any byte, which its type says. -/
def Config.wf (c : Config) : Bool :=
  decide (1 ≤ c.aw) && decide (1 ≤ c.period) && decide (2 ≤ c.tw) && decide (c.period < 2 ^ (c.tw - 2))

/-- A GRAY code and a ring index are `AW` bits wide (30_encoding R98, 20_memory R60). Every other operand has its
width in its type. -/
def Instr.wf (c : Config) : Instr → Bool
  | .cursor code => decide (code < c.slots)
  | .rd addr => decide (addr < c.slots)
  | .start => true
  | .stop => true
  | .respOk => true
  | .respTimerArmFailure => true
  | .cmdAcq => true
  | .rspAcq _ _ _ _ => true
  | .tick => true
  | .acquire => true
  | .encode => true
  | .exchange => true
  | .decode _ _ _ => true
  | .truncate _ => true
  | .write _ => true
  | .pos => true
  | .sync => true

end Sys2Proof
end

