-- ==== Sys2Proof/Decode.lean ====
section
/-! DEFINITION. The decoders of the five encoded formats (30_encoding R90 to R101) and the encoder, written from the
same tables. -/

namespace Sys2Proof

/-- A word on one of the block's ports: its format (the port it stands on), how many bits it has, its value. -/
structure Frame where
  format : Format
  nbits : Nat
  value : Nat
deriving DecidableEq, Repr

/-- Why a word is no operation. -/
inductive DecodeError where
  /-- "Every format has one fixed length" (30_encoding R90), and this is another. -/
  | wrongLength
  /-- The value does not fit the stated number of bits. -/
  | valueTooWide
  /-- A BUSTX word other than the one command: "no other command exists" (30_encoding R100 (a)). -/
  | notTheCommand
  /-- The operations of format EVENT have no bits (30_encoding R99). -/
  | noEncoding
deriving DecidableEq, Repr

/-- The fixed length of each format (30_encoding R90). -/
def Format.width (aw : Nat) : Format → Nat
  | .bustx => 24
  | .busrx => 24
  | .ctl => 1
  | .crsp => 1
  | .gray => aw
  | .event => 0

/-- The three bytes of an exchange as one value, byte0 most significant (00_scope R13, 20_memory R62). -/
def busFrame (b0 b1 b2 : Byte) : BusFrame := b0 ++ b1 ++ b2

/-- `F[23:16]`, the byte exchanged first. -/
def byte0 (f : BusFrame) : Byte := f.extractLsb' 16 8

/-- `F[15:8]`. -/
def byte1 (f : BusFrame) : Byte := f.extractLsb' 8 8

/-- `F[7:0]`, the byte exchanged last. -/
def byte2 (f : BusFrame) : Byte := f.extractLsb' 0 8

/-- The fields of the command frame `Z0, START, SGL, CH, Z1, PAD`, most significant first (30_encoding R91). -/
def commandFields (z0 : BitVec 7) (st : BitVec 1) (sgl : BitVec 1) (ch : BitVec 3) (z1 : BitVec 4)
    (pad : BitVec 8) : BusFrame :=
  z0 ++ st ++ sgl ++ ch ++ z1 ++ pad

/-- The one command (30_encoding R92): start bit 1, single-ended flag 1, channel 0, everything else 0. -/
def commandFrame : BusFrame := commandFields 0 1 1 0 0 0

/-- CTL: 1 is START, 0 is STOP; both codes are legal (30_encoding R96). -/
def decodeCtl (op : CodeBit) : Instr :=
  if op = 1#1 then .start else .stop

/-- CRSP: 0 is OK, 1 is TimerArmFailure (30_encoding R97). -/
def decodeCrsp (code : CodeBit) : Instr :=
  if code = 1#1 then .respTimerArmFailure else .respOk

/-- BUSTX: there is exactly one command (30_encoding R92, R100 (a)). -/
def decodeBusTx (f : BusFrame) : Except DecodeError Instr :=
  if f = commandFrame then .ok .cmdAcq else .error .notTheCommand

/-- BUSRX: every 24-bit value is a legal response; its fields are `U0 = G[23:16]`, `U1 = G[15:10]`,
`RAW_HI = G[9:8]`, `RAW_LO = G[7:0]` (30_encoding R93). -/
def decodeBusRx (g : BusFrame) : Instr :=
  .rspAcq (g.extractLsb' 16 8) (g.extractLsb' 10 6) (g.extractLsb' 8 2) (g.extractLsb' 0 8)

/-- The fields of a response put together again, most significant first (30_encoding R93). -/
def responseFrame (u0 : BitVec 8) (u1 : BitVec 6) (rawHi : BitVec 2) (rawLo : BitVec 8) : BusFrame :=
  u0 ++ u1 ++ rawHi ++ rawLo

/-- The decoder, total on any word: the operation the word stands for on its port, or the name of what is wrong with
it. There are no reserved codes besides the non-commands of BUSTX (30_encoding R100). -/
def decode (aw : Nat) (f : Frame) : Except DecodeError Instr :=
  if f.nbits ≠ f.format.width aw then .error .wrongLength
  else if 2 ^ f.nbits ≤ f.value then .error .valueTooWide
  else
    match f.format with
    | .ctl => .ok (decodeCtl (BitVec.ofNat 1 f.value))
    | .crsp => .ok (decodeCrsp (BitVec.ofNat 1 f.value))
    | .bustx => decodeBusTx (BitVec.ofNat 24 f.value)
    | .busrx => .ok (decodeBusRx (BitVec.ofNat 24 f.value))
    | .gray => .ok (.cursor f.value)
    | .event => .error .noEncoding

/-- A bus word given as bytes in the order they are exchanged; any list of bytes is read or rejected by name. -/
def decodeBytes (fmt : Format) (bytes : List Byte) : Except DecodeError Instr :=
  match bytes with
  | [b0, b1, b2] => decode 0 { format := fmt, nbits := 24, value := (busFrame b0 b1 b2).toNat }
  | _ => .error .wrongLength

/-- The encoder: the word of an operation on its port, none for an operation selected by an event (30_encoding R99). -/
def encode (aw : Nat) : Instr → Option Frame
  | .start => some { format := .ctl, nbits := 1, value := 1 }
  | .stop => some { format := .ctl, nbits := 1, value := 0 }
  | .respOk => some { format := .crsp, nbits := 1, value := 0 }
  | .respTimerArmFailure => some { format := .crsp, nbits := 1, value := 1 }
  | .cmdAcq => some { format := .bustx, nbits := 24, value := commandFrame.toNat }
  | .rspAcq u0 u1 rawHi rawLo =>
    some { format := .busrx, nbits := 24, value := (responseFrame u0 u1 rawHi rawLo).toNat }
  | .cursor code => some { format := .gray, nbits := aw, value := code }
  | .tick => none
  | .acquire => none
  | .encode => none
  | .exchange => none
  | .decode _ _ _ => none
  | .truncate _ => none
  | .write _ => none
  | .pos => none
  | .rd _ => none
  | .sync => none

/-- What a decoder answers, without the name of the error. -/
def decoded (r : Except DecodeError Instr) : Option Instr :=
  match r with
  | .ok i => some i
  | .error _ => none

/-- The operation read from a word of the opcode table, which names no port: a one-bit word (given in whole bytes) is
read as CTL, a 24-bit word as BUSTX where it is the command and as BUSRX otherwise, and a word of `AW` bits (13, given
as 16) as GRAY. Words of CRSP share their bits with CTL and are read by `decodeCrsp` on their own port. DESIGN CHOICE,
notes/assumptions/10.md. -/
def decodeTableWord (nbits w : Nat) : Option Instr :=
  if nbits = 1 ∨ nbits = 8 then decoded (decode Config.default.aw { format := .ctl, nbits := 1, value := w })
  else if nbits = 24 then
    match decode Config.default.aw { format := .bustx, nbits := 24, value := w } with
    | .ok i => some i
    | .error _ => decoded (decode Config.default.aw { format := .busrx, nbits := 24, value := w })
  else if nbits = 13 ∨ nbits = 16 then
    decoded (decode Config.default.aw { format := .gray, nbits := 13, value := w })
  else none

end Sys2Proof
end

