-- ==== Sys2Proof/Machine/State.lean ====
section
/-! DEFINITION. The state of the block: the fourteen rows of 10_state R20, the configuration, and the model's own
fields (the environment's schedule and what the edge in progress carries). -/

namespace Sys2Proof.Machine

/-- AcquisitionState (10_state R22): 0 = Idle, 1 = Running. -/
inductive AcquisitionState where
  | idle
  | running
deriving DecidableEq, Repr, Inhabited

/-- The tick sequencer's phase (10_state R24): 0 = `WAIT`, 1 = `EXCH`. -/
inductive SeqPhase where
  /-- No tick is in flight. -/
  | wait
  /-- A tick has fired and its answer has not been seen. -/
  | exch
deriving DecidableEq, Repr, Inhabited

/-- The ring memory: (slot, sample) pairs in one canonical form, slots strictly rising and no entry equal to
`MEM_INIT`; an unlisted slot holds `MEM_INIT` (10_state R30). -/
abbrev Memory := List Host.Cell

/-- The transport's answer to an exchange (43_external_interfaces R210). -/
inductive Answer where
  /-- `bus_err = 0` with the three bytes received. -/
  | bytes (rx0 rx1 rx2 : Byte)
  /-- `bus_err = 1` with the transport's error code. -/
  | busError (status : Nat)
deriving DecidableEq, Repr, Inhabited

/-- The value an operation returns to its caller (00_scope R8, 10_state R33: transient, read by no register rule). -/
inductive Result where
  /-- Nothing returned yet. -/
  | none
  /-- ENCODE: the command frame. -/
  | frame (f : BusFrame)
  /-- EXCHANGE: the answer. -/
  | answer (a : Answer)
  /-- DECODE: the RawReading. -/
  | raw (r : RawReading)
  /-- TRUNCATE and a successful ACQUIRE: the Sample. -/
  | sample (v : Sample)
  /-- A failed ACQUIRE: BusError carrying the underlying status. -/
  | busError (status : Nat)
  /-- POS: the index. -/
  | index (p : Nat)
deriving DecidableEq, Repr, Inhabited

/-- The input ports as sampled at the edge in progress (10_state R40), and the slot that a `clk_t` edge unordered with
the `clk_c` edge in progress writes, if any (20_memory R72). -/
structure Inputs where
  t : TIn
  c : CIn
  race : Option Nat
deriving DecidableEq, Repr, Inhabited

/-- The machine. A register of parametric width `w` is a natural number below `2 ^ w` (notes/assumptions/2.md). -/
structure State where
  /-- The parameters (00_scope R11), constant in a run. -/
  cfg : Config
  /-- R21: free-running time counter, `TW` bits. -/
  now : Nat
  /-- R22: AcquisitionState. -/
  run : AcquisitionState
  /-- R23: absolute time of the next scheduled tick, `TW` bits. -/
  deadline : Nat
  /-- R24: tick sequencer phase. -/
  seq : SeqPhase
  /-- R25: a STOP accepted with a tick in flight is not yet answered. -/
  stopPend : Bool
  /-- R26: request pulse to the bus transport. -/
  busReq : Bool
  /-- R27: response pulse to the host. -/
  ctlRespValid : Bool
  /-- R27: response code, format CRSP. -/
  ctlErr : CodeBit
  /-- R28: write cursor, `AW` bits. -/
  pos : Nat
  /-- R29: Gray code of the write cursor, `AW` bits. -/
  posGray : Nat
  /-- R30: the ring of samples. -/
  mem : Memory
  /-- R31: first synchroniser stage, `AW` bits. -/
  sync1 : Nat
  /-- R31: second synchroniser stage, `AW` bits. -/
  sync2 : Nat
  /-- R32: registered output of the sample read port. -/
  rdData : Byte
  /-- The model's own: the codes `pos_gray` held since the previous `clk_c` edge, oldest first (R144's `H`). -/
  grayHeld : List Nat
  /-- The model's own: the inputs sampled at the edge in progress. -/
  inp : Inputs
  /-- The model's own: what the last value-returning operation returned. -/
  result : Result
  /-- The model's own: the environment's events to come. -/
  schedule : List Event
  /-- The model's own: how many events have been stepped; indexes `Config.freeEvent`. -/
  edges : Nat
deriving DecidableEq, Repr, Inhabited

/-- Why a step stops with a fault. The block has no such reason: no error halts it (60_exceptions R230) and no other
failure exists inside it (R234). -/
inductive Fault where
deriving DecidableEq, Repr

/-- Why a step answers no next state. -/
inductive Refusal where
  /-- Raised by `exec` for an operation that has no meaning yet; safe. No arm raises it. -/
  | notModelled (mnemonic : String)
  /-- Raised by `step` in a configuration that breaks a constraint of 00_scope R12 ("a model refuses a configuration
  that breaks one"); safe: no claim is made about such a machine. -/
  | badConfiguration
deriving DecidableEq, Repr

/-- Every register at its reset value (10_state R44) in a given configuration; nothing scheduled. -/
def State.resetOf (c : Config) : State :=
  { cfg := c, now := 0, run := .idle, deadline := 0, seq := .wait, stopPend := false, busReq := false,
    ctlRespValid := false, ctlErr := 0, pos := 0, posGray := 0, mem := [], sync1 := 0, sync2 := 0, rdData := 0,
    grayHeld := [0], inp := { t := TIn.quiet, c := CIn.quiet, race := Option.none }, result := .none,
    schedule := [], edges := 0 }

/-- The machine right after reset, in the default configuration (10_state R44, 00_scope R11). -/
def State.reset : State := State.resetOf Config.default

end Sys2Proof.Machine
end

