-- ==== Sys2Proof/Machine/Operands.lean ====
section
/-! DEFINITION. The helper functions of 00_scope R15 and the operand values the operations read: time arithmetic,
cursor arithmetic, the cursor's Gray code, the response's reading and sample, the transport's answer, the
synchroniser's draw. -/

namespace Sys2Proof.Machine

/-- `bin2gray(b) = b xor (b >> 1)` (00_scope R15). -/
def bin2gray (b : Nat) : Nat := b ^^^ (b >>> 1)

/-- `gray2bin(g)` over `aw` bits (00_scope R15): bit `i` is the exclusive-or of the bits `i` and above of `g`, that is
`b[AW-1] = g[AW-1]` and `b[i] = g[i] xor b[i+1]`. -/
def gray2bin : (aw : Nat) → (g : Nat) → Nat
  | 0, _ => 0
  | k + 1, g => g ^^^ gray2bin k (g >>> 1)

/-- `(a - d) mod 2^TW`: how long after `d` the time `a` is (00_scope R15). -/
def timeSince (tw a d : Nat) : Nat := (a + (2 ^ tw - d % 2 ^ tw)) % 2 ^ tw

/-- `reached(a, d) = ((a - d) mod 2^TW) < 2^(TW-1)`: true when time `a` is at or after deadline `d` (00_scope R15). -/
def reached (tw a d : Nat) : Bool := decide (timeSince tw a d < 2 ^ (tw - 1))

/-- `(a + k) mod 2^TW`. -/
def timeAfter (c : Config) (a k : Nat) : Nat := (a + k) % c.timeModulus

/-- The slot after `p`, `(p + 1) mod N` (20_memory R61). -/
def nextSlot (c : Config) (p : Nat) : Nat := (p + 1) % c.slots

/-- The slot a value on the `AW` wires of `rd_addr` names (10_state R40). -/
def slotOf (c : Config) (addr : Nat) : Nat := addr % c.slots

/-- `decode(rx1, rx2) = ((rx1 & 0x03) << 8) | rx2`, 10 bits (00_scope R15, 40_codec R122). -/
def decodeReading (rx1 rx2 : Byte) : RawReading :=
  ((rx1 &&& 0x03#8).setWidth 10 <<< 8) ||| rx2.setWidth 10

/-- `truncate(raw) = (raw >> 2) & 0xFF`, 8 bits (00_scope R15, 40_codec R123). -/
def truncateReading (raw : RawReading) : Sample :=
  ((raw >>> 2) &&& 0xFF#10).setWidth 8

/-- DECODE followed by TRUNCATE on the bytes of a response (42_scheduler R176). -/
def sampleOf (rx1 rx2 : Byte) : Sample := truncateReading (decodeReading rx1 rx2)

/-- The transport's answer on the input ports at a `bus_done` edge (43_external_interfaces R210). With `bus_err = 1` the
bytes are not looked at (40_codec R124); `bus_status` has `SW` wires. -/
def answerOf (s : State) : Answer :=
  if s.inp.t.busErr then .busError (s.inp.t.busStatus % 2 ^ s.cfg.sw)
  else .bytes s.inp.t.busRx0 s.inp.t.busRx1 s.inp.t.busRx2

/-- What ACQUIRE returns for an answer (40_codec R124): a Sample, or BusError carrying the underlying status. -/
def acquired : Answer → Result
  | .bytes _ rx1 rx2 => .sample (sampleOf rx1 rx2)
  | .busError status => .busError status

/-- `pos_c = gray2bin(sync2)` (10_state R41): the cursor as seen in the consumer domain. -/
def posC (s : State) : Nat := gray2bin s.cfg.aw s.sync2

/-- `draw H(c)` (41_ring_buffer R144): one of the codes `pos_gray` held since the previous `clk_c` edge. The
environment's `pick` says which, and every one can be picked. -/
def drawnCode (s : State) : Nat :=
  s.grayHeld.getD (s.inp.c.pick % s.grayHeld.length) s.posGray

end Sys2Proof.Machine
end

