-- ==== Sys2Proof/Machine/Flags.lean ====
section
/-! DEFINITION. The local conditions of the tick-domain step (42_scheduler R170), each a function of the registers and
the sampled inputs, and the outputs of the block (10_state R40, R41). The block has no condition codes (10_state R36). -/

namespace Sys2Proof.Machine

/-- `complete := (seq = EXCH) and (bus_done = 1)`. -/
def complete (s : State) : Bool := decide (s.seq = .exch) && s.inp.t.busDone

/-- `ctl_ready = not stop_pend` (10_state R41). -/
def ctlReady (s : State) : Bool := !s.stopPend

/-- `accept := (ctl_valid = 1) and (stop_pend = 0)`. -/
def accept (s : State) : Bool := s.inp.t.ctlValid && ctlReady s

/-- `is_start := accept and (ctl_op = 1)`. -/
def isStart (s : State) : Bool := accept s && decide (s.inp.t.ctlOp = 1#1)

/-- `is_stop := accept and (ctl_op = 0)`. -/
def isStop (s : State) : Bool := accept s && decide (s.inp.t.ctlOp = 0#1)

/-- `run = 1 and reached(now, deadline)`: the tick is pending (60_exceptions R237). -/
def pending (s : State) : Bool := decide (s.run = .running) && reached s.cfg.tw s.now s.deadline

/-- `fire := (run = 1) and (seq = WAIT) and reached(now, deadline) and not is_stop` (42_scheduler R174). -/
def fire (s : State) : Bool := pending s && decide (s.seq = .wait) && !isStop s

/-- `(seq = EXCH) and not complete`: a tick is in flight and does not end at this edge (42_scheduler R173). -/
def inFlight (s : State) : Bool := decide (s.seq = .exch) && !complete s

/-- The slot the edge of `clk_t` writes, if it writes one: `pos`, at a completion with `bus_err = 0`
(41_ring_buffer R140). -/
def writtenSlot (s : State) : Option Nat :=
  if complete s && !s.inp.t.busErr then some s.pos else none

/-- What an observer of the block can see (00_scope R9, 10_state R40). -/
structure Outputs where
  ctlReady : Bool
  ctlRespValid : Bool
  ctlErr : CodeBit
  running : Bool
  busReq : Bool
  busTx0 : Byte
  busTx1 : Byte
  busTx2 : Byte
  posC : Nat
  rdData : Byte
deriving DecidableEq, Repr

/-- The outputs as functions of the state: registers, and the combinational outputs of 10_state R41. The command bytes
are constants at all times. -/
def outputs (s : State) : Outputs :=
  { ctlReady := ctlReady s, ctlRespValid := s.ctlRespValid, ctlErr := s.ctlErr,
    running := decide (s.run = .running), busReq := s.busReq,
    busTx0 := byte0 commandFrame, busTx1 := byte1 commandFrame, busTx2 := byte2 commandFrame,
    posC := posC s, rdData := s.rdData }

end Sys2Proof.Machine
end

