-- ==== Sys2Proof/Machine/Ops.lean ====
section
/-! DEFINITION. The named operations over the ring memory and the registers, each a record update, from which every
meaning is built. A part reads registers that no earlier part of the same edge has written, so that running the parts
one after the other gives the simultaneous assignments of 42_scheduler R170 (notes/assumptions/8.md). -/

namespace Sys2Proof.Machine

/-- `MemRead(a, 1)`: the sample in slot `a`; a slot not listed holds `d = MEM_INIT` (20_memory R77). -/
def Memory.read (d : Byte) : Memory → Nat → Byte
  | [], _ => d
  | (b, w) :: m, a => if a = b then w else Memory.read d m a

/-- `MemWrite(a, 1, v)` in the canonical form: slots stay strictly rising, and storing `d = MEM_INIT` removes the
entry. -/
def Memory.write (d : Byte) : Memory → Nat → Byte → Memory
  | [], a, v => if v = d then [] else [(a, v)]
  | (b, w) :: m, a, v =>
    if a < b then (if v = d then (b, w) :: m else (a, v) :: (b, w) :: m)
    else if a = b then (if v = d then m else (a, v) :: m)
    else (b, w) :: Memory.write d m a v

/-- Slots strictly rising from `lo`, below `bound`, and no entry equal to `d`. -/
def Memory.wfFrom (d : Byte) (bound : Nat) : Nat → Memory → Bool
  | _, [] => true
  | lo, (b, w) :: m =>
    decide (lo ≤ b) && decide (b < bound) && decide (w ≠ d) && Memory.wfFrom d bound (b + 1) m

/-- The canonical form of the memory of a ring of `bound` slots whose initial content is `d`. -/
def Memory.wf (d : Byte) (bound : Nat) (m : Memory) : Bool := Memory.wfFrom d bound 0 m

/-- The content of slot `a` of the ring. -/
def readSlot (s : State) (a : Nat) : Byte := Memory.read s.cfg.memInit s.mem a

/-- Records the value an operation returns. -/
def setResult (r : Result) (s : State) : State := { s with result := r }

/-- `ctl_resp_valid <- 1; ctl_err <- code`: a call returns (10_state R27). -/
def respond (code : CodeBit) (s : State) : State := { s with ctlRespValid := true, ctlErr := code }

/-- The Idle to Running part of START (42_scheduler R172): `run <- 1; deadline <- (now + P) mod 2^TW`. -/
def arm (s : State) : State :=
  { s with run := .running, deadline := timeAfter s.cfg s.now s.cfg.period }

/-- `run <- 0`: disarm, no later edge can fire (42_scheduler R173). -/
def disarm (s : State) : State := { s with run := .idle }

/-- `stop_pend <- 1`: the answer to a STOP is deferred to the completion of the tick in flight (42_scheduler R173). -/
def deferStop (s : State) : State := { s with stopPend := true }

/-- WRITE (41_ring_buffer R140): store at `pos`, advance `pos` modulo `N`, and the Gray code with it, at one edge. The
new code joins those held since the previous `clk_c` edge. -/
def ringWrite (v : Sample) (s : State) : State :=
  { s with
    mem := Memory.write s.cfg.memInit s.mem s.pos v
    pos := nextSlot s.cfg s.pos
    posGray := bin2gray (nextSlot s.cfg s.pos)
    grayHeld := s.grayHeld ++ [bin2gray (nextSlot s.cfg s.pos)] }

/-- The request half of EXCHANGE (40_codec R121): one `bus_req` pulse carrying the command frame. -/
def beginExchange (s : State) : State := { s with busReq := true, result := .frame commandFrame }

/-- TICK ENTRY, what a trap entry would be (60_exceptions R239, 42_scheduler R175 FIRE): `seq <- EXCH; bus_req <- 1`;
nothing is saved and no mode changes. -/
def enterTick (s : State) : State := { beginExchange s with seq := .exch }

/-- The self-correcting rearm and the end of the tick (42_scheduler R177, R176): `deadline <- (deadline + P) mod 2^TW;
seq <- WAIT`. -/
def rearm (s : State) : State :=
  { s with deadline := timeAfter s.cfg s.deadline s.cfg.period, seq := .wait }

/-- A deferred STOP returns now (42_scheduler R176): `stop_pend <- 0; ctl_resp_valid <- 1; ctl_err <- 0`. -/
def releaseStop (s : State) : State :=
  { s with stopPend := false, ctlRespValid := true, ctlErr := 0#1 }

/-- The ring write of a completing tick: the decoded sample, or nothing after a BusError (42_scheduler R176, R180). -/
def writeAnswer (a : Answer) (s : State) : State :=
  match a with
  | .bytes _ rx1 rx2 => ringWrite (sampleOf rx1 rx2) s
  | .busError _ => s

/-- TICK RETURN, what a return from a trap would be (60_exceptions R240, 42_scheduler R176 COMPLETE): the write, the
next deadline, `seq <- WAIT`, and the answer to a deferred STOP. BusError is absorbed: nothing records it. -/
def completeTick (a : Answer) (s : State) : State :=
  let t := rearm (writeAnswer a (setResult (acquired a) s))
  if s.stopPend then releaseStop t else t

/-- One edge of the synchroniser that captures `code` (41_ring_buffer R144): `sync2 <- sync1; sync1 <- code`. From here
on the codes held since "the previous `clk_c` edge" are the one `pos_gray` holds now. -/
def syncCapture (code : Nat) (s : State) : State :=
  { s with sync2 := s.sync1, sync1 := code, grayHeld := [s.posGray] }

/-- The byte the read port returns for a slot (20_memory R71, R72): its content, or any byte where an edge of `clk_t`
that is not ordered with this one writes the slot. -/
def portByte (slot : Nat) (s : State) : Byte :=
  if s.inp.race = some slot then s.inp.c.junk else readSlot s slot

/-- `rd_data <- MemRead(rd_addr, 1)` (41_ring_buffer R148). -/
def readPort (addr : Nat) (s : State) : State := { s with rdData := portByte (slotOf s.cfg addr) s }

/-- Samples the tick domain's input ports (00_scope R8). -/
def sampleT (t : TIn) (s : State) : State := { s with inp := { s.inp with t := t } }

/-- Samples the consumer domain's input ports at an edge that races with a write of slot `race`, if any. -/
def sampleC (race : Option Nat) (c : CIn) (s : State) : State :=
  { s with inp := { s.inp with c := c, race := race } }

/-- The defaults of 42_scheduler R170 for the two pulses: `bus_req <- 0; ctl_resp_valid <- 0`. -/
def clearPulses (s : State) : State := { s with busReq := false, ctlRespValid := false }

/-- `now <- (now + 1) mod 2^TW` (10_state R21). No part of the edge reads the new value, so it is written last. -/
def countTime (s : State) : State := { s with now := timeAfter s.cfg s.now 1 }

/-- RESET (70_reset_and_hazards R260): every register takes its reset value; what the environment does next is not the
block's to change. -/
def resetAll (s : State) : State :=
  { State.resetOf s.cfg with schedule := s.schedule, edges := s.edges }

end Sys2Proof.Machine
end

