-- ==== Sys2Proof/Machine/Codec.lean ====
section
/-! DEFINITION. The meanings of the codec's operations: ENCODE, EXCHANGE, DECODE, TRUNCATE, ACQUIRE (40_codec R120 to
R124) and of the two bus frames CMD_ACQ and RSP_ACQ. -/

namespace Sys2Proof.Machine

/-- CMD_ACQ: the one command, emitted with a `bus_req` pulse (30_encoding R92, 40_codec R121). -/
def execCmdAcq (s : State) : Host.Outcome State Fault Refusal :=
  .next (beginExchange s)

/-- RSP_ACQ: a response frame with `bus_err = 0` at a `bus_done` edge. With a tick in flight it completes the tick with
the decoded sample (42_scheduler R176, 40_codec R122, R123); with `seq = WAIT` it is ignored entirely (R176). -/
def execRspAcq (u0 : BitVec 8) (u1 : BitVec 6) (rawHi : BitVec 2) (rawLo : BitVec 8) (s : State) :
    Host.Outcome State Fault Refusal :=
  let g := responseFrame u0 u1 rawHi rawLo
  match s.seq with
  | .exch => .next (completeTick (.bytes (byte0 g) (byte1 g) (byte2 g)) s)
  | .wait => .next s

/-- ENCODE (40_codec R120): returns the command frame; no state, no input. -/
def execEncode (s : State) : Host.Outcome State Fault Refusal :=
  .next (setResult (.frame commandFrame) s)

/-- EXCHANGE (40_codec R121): begins with one request pulse where no exchange is in flight, returns the transport's
answer at the `bus_done` edge, and waits in between. -/
def execExchange (s : State) : Host.Outcome State Fault Refusal :=
  match s.seq with
  | .wait => .next (beginExchange s)
  | .exch => if s.inp.t.busDone then .next (setResult (.answer (answerOf s)) s) else .next s

/-- DECODE (40_codec R122): returns the 10-bit reading; `rx0` is not an operand of the formula. -/
def execDecode (_rx0 rx1 rx2 : Byte) (s : State) : Host.Outcome State Fault Refusal :=
  .next (setResult (.raw (decodeReading rx1 rx2)) s)

/-- TRUNCATE (40_codec R123): returns the sample. -/
def execTruncate (raw : RawReading) (s : State) : Host.Outcome State Fault Refusal :=
  .next (setResult (.sample (truncateReading raw)) s)

/-- ACQUIRE (40_codec R124), over the life of one tick: ENCODE and the request, the wait, and at the `bus_done` edge a
Sample or BusError with the underlying status. -/
def execAcquire (s : State) : Host.Outcome State Fault Refusal :=
  match s.seq with
  | .wait => .next (beginExchange s)
  | .exch => if s.inp.t.busDone then .next (setResult (acquired (answerOf s)) s) else .next s

end Sys2Proof.Machine
end

