-- ==== Sys2Proof/Machine/Ring.lean ====
section
/-! DEFINITION. The meanings of the ring buffer's and the crossing's operations: WRITE, POS, RD, SYNC and the Gray
code CURSOR (41_ring_buffer R140 to R148, 30_encoding R98). -/

namespace Sys2Proof.Machine

/-- WRITE (41_ring_buffer R140). -/
def execWrite (sample : Sample) (s : State) : Host.Outcome State Fault Refusal :=
  .next (ringWrite sample s)

/-- POS (41_ring_buffer R143): returns `pos_c`; changes no register. -/
def execPos (s : State) : Host.Outcome State Fault Refusal :=
  .next (setResult (.index (posC s)) s)

/-- RD (41_ring_buffer R148). -/
def execRd (addr : Nat) (s : State) : Host.Outcome State Fault Refusal :=
  .next (readPort addr s)

/-- SYNC (41_ring_buffer R144): the synchroniser captures a code drawn from those held since the previous edge of
`clk_c`. -/
def execSync (s : State) : Host.Outcome State Fault Refusal :=
  .next (syncCapture (drawnCode s) s)

/-- CURSOR: a code of the crossing, captured at an edge of `clk_c` if it is one `pos_gray` held since the previous edge
(30_encoding R98, 41_ring_buffer R144); a code it did not hold is not on the crossing and nothing captures it. -/
def execCursor (code : Nat) (s : State) : Host.Outcome State Fault Refusal :=
  if code ∈ s.grayHeld then .next (syncCapture code s) else .next s

end Sys2Proof.Machine
end

