-- ==== Sys2Proof/Machine/Scheduler.lean ====
section
/-! DEFINITION. The meanings of the scheduler's and the control port's operations: START, STOP, the two response codes
and TICK (42_scheduler R172 to R176, 30_encoding R97). -/

namespace Sys2Proof.Machine

/-- START once accepted (42_scheduler R172). -/
def startAccepted (s : State) : State :=
  match s.run with
  | .running => respond 0#1 s
  | .idle => if s.inp.t.tbOk then respond 0#1 (arm s) else respond 1#1 s

/-- STOP once accepted (42_scheduler R173). -/
def stopAccepted (s : State) : State :=
  match s.run with
  | .idle => respond 0#1 s
  | .running => if inFlight s then deferStop (disarm s) else respond 0#1 (disarm s)

/-- START presented at an edge (42_scheduler R172); with `ctl_ready = 0` it is not accepted and has no effect
(30_encoding R96). -/
def execStart (s : State) : Host.Outcome State Fault Refusal :=
  if ctlReady s then .next (startAccepted s) else .next s

/-- STOP presented at an edge (42_scheduler R173); with `ctl_ready = 0` it is not accepted and has no effect
(30_encoding R96). -/
def execStop (s : State) : Host.Outcome State Fault Refusal :=
  if ctlReady s then .next (stopAccepted s) else .next s

/-- RESP_OK (30_encoding R97): the response pulse with code 0. -/
def execRespOk (s : State) : Host.Outcome State Fault Refusal :=
  .next (respond 0#1 s)

/-- RESP_TIMER_ARM_FAILURE (30_encoding R97, 60_exceptions R232): the response pulse with code 1. Only START issues
it. -/
def execRespTimerArmFailure (s : State) : Host.Outcome State Fault Refusal :=
  .next (respond 1#1 s)

/-- TICK: its second half COMPLETE at an edge with `seq = EXCH` and `bus_done = 1` (42_scheduler R176), its first half
FIRE where the fire condition holds (R175); at any other edge the tick waits, for its answer (60_exceptions R249) or
for its deadline (R174). -/
def execTick (s : State) : Host.Outcome State Fault Refusal :=
  if complete s then .next (completeTick (answerOf s) s)
  else if fire s then .next (enterTick s)
  else .next s

end Sys2Proof.Machine
end

