-- ==== Sys2Proof/Machine/Dispatch.lean ====
section
/-! DEFINITION. One arm per operation of the table. -/

namespace Sys2Proof.Machine

def exec (i : Instr) (s : State) : Host.Outcome State Fault Refusal :=
  match i with
  | .start => Sys2Proof.Machine.execStart s
  | .stop => Sys2Proof.Machine.execStop s
  | .respOk => Sys2Proof.Machine.execRespOk s
  | .respTimerArmFailure => Sys2Proof.Machine.execRespTimerArmFailure s
  | .cmdAcq => Sys2Proof.Machine.execCmdAcq s
  | .rspAcq u0 u1 rawHi rawLo => Sys2Proof.Machine.execRspAcq u0 u1 rawHi rawLo s
  | .cursor code => Sys2Proof.Machine.execCursor code s
  | .tick => Sys2Proof.Machine.execTick s
  | .acquire => Sys2Proof.Machine.execAcquire s
  | .encode => Sys2Proof.Machine.execEncode s
  | .exchange => Sys2Proof.Machine.execExchange s
  | .decode rx0 rx1 rx2 => Sys2Proof.Machine.execDecode rx0 rx1 rx2 s
  | .truncate raw => Sys2Proof.Machine.execTruncate raw s
  | .write sample => Sys2Proof.Machine.execWrite sample s
  | .pos => Sys2Proof.Machine.execPos s
  | .rd addr => Sys2Proof.Machine.execRd addr s
  | .sync => Sys2Proof.Machine.execSync s

end Sys2Proof.Machine
end

