-- ==== Sys2Proof/Machine/Edge.lean ====
section
/-! DEFINITION. One event at the block's boundary: which operations an edge selects, in which order, and what the edge
adds around them (42_scheduler R170, 41_ring_buffer R144, R148, 20_memory R72, 70_reset_and_hazards R260). -/

namespace Sys2Proof.Machine

/-- Goes on with the next state, stops where the first part stopped. -/
def andThen (o : Host.Outcome State Fault Refusal) (k : State → Host.Outcome State Fault Refusal) :
    Host.Outcome State Fault Refusal :=
  match o with
  | .next s => k s
  | .fault r => .fault r
  | .refused r => .refused r

/-- Runs operations one after the other. -/
def runOps : List Instr → State → Host.Outcome State Fault Refusal
  | [], s => .next s
  | i :: is, s => andThen (exec i s) (runOps is)

/-- The end of the tick in flight, if this edge brings it: a successful answer is the BUSRX frame on the port, decoded
(30_encoding R93); after a failed exchange no frame is decoded and the tick ends by itself. -/
def completionOps (s : State) : List Instr :=
  if complete s then
    (if s.inp.t.busErr then [.tick] else [decodeBusRx (busFrame s.inp.t.busRx0 s.inp.t.busRx1 s.inp.t.busRx2)])
  else []

/-- The command the edge accepts, if any: the code on the control port, decoded (30_encoding R96). -/
def commandOps (s : State) : List Instr :=
  if accept s then [decodeCtl s.inp.t.ctlOp] else []

/-- The tick the edge starts, if any (42_scheduler R174). -/
def firingOps (s : State) : List Instr :=
  if fire s then [.tick] else []

/-- The operations of one edge of `clk_t`, all conditions from the pre-edge state and the sampled inputs, in the fixed
order of 42_scheduler R170: completion, command, fire. -/
def tickDomainOps (s : State) : List Instr := completionOps s ++ commandOps s ++ firingOps s

/-- The operations of one edge of `clk_c`: the consumer's sample of `pos_c` where it takes one, then SYNC and RD
(41_ring_buffer R143, R144, R148). -/
def consumerDomainOps (s : State) : List Instr :=
  (if s.inp.c.readPos then [.pos] else []) ++ [.sync, .rd s.inp.c.rdAddr]

/-- One active edge of `clk_t` outside reset (42_scheduler R170). -/
def clkTEdge (t : TIn) (s : State) : Host.Outcome State Fault Refusal :=
  andThen (runOps (tickDomainOps (sampleT t s)) (clearPulses (sampleT t s))) fun s' => .next (countTime s')

/-- One active edge of `clk_c` outside reset; `race` is the slot a `clk_t` edge not ordered with it writes. -/
def clkCEdge (race : Option Nat) (c : CIn) (s : State) : Host.Outcome State Fault Refusal :=
  runOps (consumerDomainOps (sampleC race c s)) (sampleC race c s)

/-- One event (00_scope R8, R10). A pair of edges that are not ordered runs in the order the crossing resolves, and a
read of the slot the pair writes returns any byte (20_memory R72). -/
def runEvent (e : Event) (s : State) : Host.Outcome State Fault Refusal :=
  match e with
  | .clkT t => clkTEdge t s
  | .clkC c => clkCEdge none c s
  | .both t c tFirst =>
    let race := writtenSlot (sampleT t s)
    if tFirst then andThen (clkTEdge t s) (clkCEdge race c) else andThen (clkCEdge race c s) (clkTEdge t)
  | .reset => .next (resetAll s)

/-- The event that happens next: the head of the schedule, and past its end any event (notes/assumptions/3.md). -/
def nextEvent (s : State) : Event :=
  match s.schedule with
  | e :: _ => e
  | [] => Config.freeEvent s.edges

/-- The event is taken from the schedule and counted. -/
def takeEvent (s : State) : State := { s with schedule := s.schedule.tail, edges := s.edges + 1 }

/-- The inputs of a successful answer carrying a response frame. -/
def TIn.answering (g : BusFrame) : TIn :=
  { TIn.quiet with busDone := true, busRx0 := byte0 g, busRx1 := byte1 g, busRx2 := byte2 g }

/-- The inputs of an edge at which the host presents a command, with the time base sound. -/
def TIn.commanding (op : CodeBit) : TIn := { TIn.quiet with ctlValid := true, ctlOp := op }

/-- Puts an encoded operation where the next step runs it: a command on the control port with `ctl_ready = 1`; the
command frame as the firing of a tick that is due; a response frame as the answer to a tick in flight; a cursor code on
the crossing. An operation without an encoding is not placed. -/
def placeInstr (i : Instr) (s : State) : State :=
  match i with
  | .start => { s with stopPend := false, schedule := .clkT (TIn.commanding 1#1) :: s.schedule }
  | .stop => { s with stopPend := false, schedule := .clkT (TIn.commanding 0#1) :: s.schedule }
  | .cmdAcq =>
    { s with run := .running, seq := .wait, stopPend := false, deadline := s.now,
             schedule := .clkT TIn.quiet :: s.schedule }
  | .rspAcq u0 u1 rawHi rawLo =>
    { s with run := .running, seq := .exch, stopPend := false,
             schedule := .clkT (TIn.answering (responseFrame u0 u1 rawHi rawLo)) :: s.schedule }
  | .cursor code =>
    { s with pos := gray2bin s.cfg.aw code, posGray := code, grayHeld := [code],
             schedule := .clkC CIn.quiet :: s.schedule }
  | .respOk => s
  | .respTimerArmFailure => s
  | .tick => s
  | .acquire => s
  | .encode => s
  | .exchange => s
  | .decode _ _ _ => s
  | .truncate _ => s
  | .write _ => s
  | .pos => s
  | .rd _ => s
  | .sync => s

end Sys2Proof.Machine
end

