-- ==== Sys2Proof/Machine/Step.lean ====
section
/-! DEFINITION. One step of the machine: the next event at the block's boundary. -/

namespace Sys2Proof.Machine

/-- One step (00_scope R8): the next event. A configuration that breaks 00_scope R12 is refused. -/
def step (s : State) : Host.Outcome State Fault Refusal :=
  if s.cfg.wf then runEvent (nextEvent s) (takeEvent s) else .refused .badConfiguration

/-- The state whose very next step runs the operation that the table word `w` stands for; `s` itself where the word
stands for none (notes/assumptions/11.md). -/
def State.withFetchWord (s : State) (nbits w : Nat) : State :=
  match decodeTableWord nbits w with
  | some i => placeInstr i s
  | none => s

end Sys2Proof.Machine
end

