-- ==== Sys2Proof/Machine/Environment.lean ====
section
/-! DEFINITION. The environment's side of the boundary contracts (43_external_interfaces): the duties the block's rules
assume of the transport and the host, and a run as each domain sees it. None of it is state of the block. -/

namespace Sys2Proof.Machine

/-- The inputs of an event in the tick domain, if it has an edge of `clk_t`. -/
def tickInputs : Event → Option TIn
  | .clkT t => some t
  | .clkC _ => none
  | .both t _ _ => some t
  | .reset => none

/-- The transport's duty as the block can see it (43_external_interfaces R211 (a)): no `bus_done` without a request in
flight. -/
def transportDuty (s : State) (e : Event) : Bool :=
  match tickInputs e with
  | some t => !t.busDone || decide (s.seq = .exch)
  | none => true

/-- How late the block is on its deadline, `(now - deadline) mod 2^TW` (70_reset_and_hazards R269). -/
def lateness (s : State) : Nat := timeSince s.cfg.tw s.now s.deadline

/-- The length of the wait for the deadline, `(deadline - now) mod 2^TW`. -/
def edgesToDeadline (s : State) : Nat := timeSince s.cfg.tw s.deadline s.now

/-- The inputs of the edges of `clk_t` among the events, in order: a run as the tick domain sees it, whatever edges of
`clk_c` lie between (00_scope R10). -/
def tickTrain (es : List Event) : List TIn := es.filterMap tickInputs

/-- The sample the event's edge of `clk_t` writes into the ring, if it writes one (41_ring_buffer R140, 42_scheduler
R176). -/
def writtenBy (s : State) (e : Event) : List Sample :=
  match tickInputs e with
  | some t => if (writtenSlot (sampleT t s)).isSome then [sampleOf t.busRx1 t.busRx2] else []
  | none => []

end Sys2Proof.Machine
end

