-- ==== Sys2Proof/Machine/Consumer.lean ====
section
/-! DEFINITION. The reference behaviour of the consumer (43_external_interfaces R214, R215): an agent outside the block
with its own read pointer, and the system of the block and the consumer, one event at a time. A poll lasts several
edges; edges of both clocks, ring writes and collisions fall between and on its reads (notes/assumptions/21.md). -/

namespace Sys2Proof.Machine

/-- A poll in progress: the index POS returned, and the samples copied so far, `out[0]` first. -/
structure Poll where
  p : Nat
  out : List Byte
deriving DecidableEq, Repr, Inhabited

/-- The consumer (R214): its read pointer, the poll it is in, and what its finished polls copied, oldest first. -/
structure Consumer where
  /-- `lastPos`, `AW` bits, binary; it never leaves the consumer (41_ring_buffer R149). -/
  lastPos : Nat
  poll : Option Poll
  copied : List Byte
deriving DecidableEq, Repr, Inhabited

/-- The consumer at reset: "initially 0 to match the reset value of `pos`" (R214, 70_reset_and_hazards R263). -/
def Consumer.initial : Consumer := { lastPos := 0, poll := none, copied := [] }

/-- `avail = (p - lastPos) mod N` (R214). -/
def Consumer.avail (c : Config) (p lastPos : Nat) : Nat := (p + (c.slots - lastPos % c.slots)) % c.slots

/-- The slot of the poll's `i`-th read, `(lastPos + i) mod N` (R214). -/
def Consumer.slotAt (c : Config) (lastPos i : Nat) : Nat := (lastPos + i) % c.slots

/-- The slots a poll copies, in order (R214). -/
def Consumer.copySlots (c : Config) (p lastPos : Nat) : List Nat :=
  (List.range (Consumer.avail c p lastPos)).map (Consumer.slotAt c lastPos)

/-- `p = POS()`: a poll begins, if none is in progress. -/
def Consumer.begin (p : Nat) (u : Consumer) : Consumer :=
  match u.poll with
  | none => { u with poll := some { p := p, out := [] } }
  | some _ => u

/-- The slot the poll in progress reads next. -/
def Consumer.wanted (c : Config) (u : Consumer) : Option Nat :=
  match u.poll with
  | none => none
  | some q =>
    if q.out.length < Consumer.avail c q.p u.lastPos then some (Consumer.slotAt c u.lastPos q.out.length) else none

/-- `out[i] = v`. -/
def Consumer.take (v : Byte) (u : Consumer) : Consumer :=
  match u.poll with
  | none => u
  | some q => { u with poll := some { q with out := q.out ++ [v] } }

/-- The end of a poll that has copied its `avail` samples: `lastPos = p` (R214: copy, then advance). -/
def Consumer.finish (c : Config) (u : Consumer) : Consumer :=
  match u.poll with
  | none => u
  | some q =>
    if q.out.length < Consumer.avail c q.p u.lastPos then u
    else { lastPos := q.p, poll := none, copied := u.copied ++ q.out }

/-- The inputs of an event in the consumer domain, if it has an edge of `clk_c`. -/
def consumerInputs : Event → Option CIn
  | .clkT _ => none
  | .clkC c => some c
  | .both _ c _ => some c
  | .reset => none

/-- The event with `rd_addr` driven to a slot, where it has an edge of `clk_c`. -/
def driveAddress (slot : Nat) : Event → Event
  | .clkT t => .clkT t
  | .clkC c => .clkC { c with rdAddr := slot }
  | .both t c tFirst => .both t { c with rdAddr := slot } tFirst
  | .reset => .reset

/-- The consumer after the POS it takes at the event, where it takes one: it samples `pos_c` as shown before the edge
(41_ring_buffer R143). -/
def Consumer.sampled (s : State) (e : Event) (u : Consumer) : Consumer :=
  match consumerInputs e with
  | some c => if c.readPos then u.begin (posC s) else u
  | none => u

/-- The slot the consumer copies at the event: the one its poll wants next, if the event has an edge of `clk_c` and the
consumer uses it (`copy`). The consumer's pace is free. -/
def Consumer.copies (s : State) (e : Event) (copy : Bool) (u : Consumer) : Option Nat :=
  if copy && (consumerInputs e).isSome then (u.sampled s e).wanted s.cfg else none

/-- The block and its consumer. -/
structure System where
  block : State
  consumer : Consumer
deriving DecidableEq, Repr, Inhabited

/-- The event as the block meets it: `rd_addr` is the slot the consumer copies, if it copies one. -/
def System.driven (e : Event) (copy : Bool) (y : System) : Event :=
  match y.consumer.copies y.block e copy with
  | some slot => driveAddress slot e
  | none => e

/-- The consumer after the event: a reset starts it afresh; else it takes `rd_data` where it copies, and ends its poll
where that was the last sample. `s` is the block after the event. -/
def System.consumerAfter (e : Event) (copy : Bool) (y : System) (s : State) : Consumer :=
  match e with
  | .reset => Consumer.initial
  | .clkT _ => y.consumer
  | .clkC _ | .both _ _ _ =>
    let u := y.consumer.sampled y.block e
    Consumer.finish y.block.cfg
      (if (y.consumer.copies y.block e copy).isSome then u.take s.rdData else u)

/-- One event of the block with its consumer: one RD per edge of `clk_c` (R214). -/
def System.edge (e : Event) (copy : Bool) (y : System) : Host.Outcome System Fault Refusal :=
  match step { y.block with schedule := y.driven e copy :: y.block.schedule } with
  | .next s => .next { block := s, consumer := y.consumerAfter e copy s }
  | .fault r => .fault r
  | .refused r => .refused r

/-- A run of the system: each event with the consumer's use of it. -/
def System.run : List (Event × Bool) → System → Host.Outcome System Fault Refusal
  | [], y => .next y
  | (e, copy) :: es, y =>
    match y.edge e copy with
    | .next z => System.run es z
    | .fault r => .fault r
    | .refused r => .refused r

/-- The block and its consumer right after reset (R214, 10_state R44). -/
def System.resetOf (c : Config) : System := { block := State.resetOf c, consumer := Consumer.initial }

end Sys2Proof.Machine
end

