-- ==== Sys2Proof/Machine/Reference.lean ====
section
/-! DEFINITION. The block once more, register by register: the next value of each of the fourteen registers of 10_state
R20 as one expression over the pre-edge values and the sampled inputs, read off 42_scheduler R170 to R176 and
41_ring_buffer R140, R144, R148 as simultaneous assignments. The machine itself runs the parts one after the other; a
statement says that the two agree. -/

namespace Sys2Proof.Machine

/-- The fourteen rows of 10_state R20 and nothing else. -/
structure Registers where
  now : Nat
  run : AcquisitionState
  deadline : Nat
  seq : SeqPhase
  stopPend : Bool
  busReq : Bool
  ctlRespValid : Bool
  ctlErr : CodeBit
  pos : Nat
  posGray : Nat
  mem : Memory
  sync1 : Nat
  sync2 : Nat
  rdData : Byte
deriving DecidableEq, Repr

/-- The registers of a state. -/
def registers (s : State) : Registers :=
  { now := s.now, run := s.run, deadline := s.deadline, seq := s.seq, stopPend := s.stopPend, busReq := s.busReq,
    ctlRespValid := s.ctlRespValid, ctlErr := s.ctlErr, pos := s.pos, posGray := s.posGray, mem := s.mem,
    sync1 := s.sync1, sync2 := s.sync2, rdData := s.rdData }

/-- START accepted from Idle (42_scheduler R172). -/
def startsFromIdle (s : State) : Bool := isStart s && decide (s.run = .idle)

/-- The answer to a STOP is given at this edge: no tick is in flight after it (42_scheduler R173), or the STOP was
deferred and its tick ends here (R176). -/
def stopAnswered (s : State) : Bool :=
  (isStop s && !(decide (s.run = .running) && inFlight s)) || (complete s && s.stopPend)

/-- The next value of every register at an edge of `clk_t` whose inputs are already in `s.inp` (42_scheduler R170). -/
def tickDomainNext (s : State) : Registers :=
  { now := (s.now + 1) % 2 ^ s.cfg.tw
    run := if isStop s then .idle else if startsFromIdle s && s.inp.t.tbOk then .running else s.run
    deadline :=
      if startsFromIdle s && s.inp.t.tbOk then (s.now + s.cfg.period) % 2 ^ s.cfg.tw
      else if complete s then (s.deadline + s.cfg.period) % 2 ^ s.cfg.tw
      else s.deadline
    seq := if fire s then .exch else if complete s then .wait else s.seq
    stopPend :=
      if isStop s && decide (s.run = .running) && inFlight s then true
      else if complete s then false
      else s.stopPend
    busReq := fire s
    ctlRespValid := isStart s || stopAnswered s
    ctlErr :=
      if startsFromIdle s && !s.inp.t.tbOk then 1#1
      else if isStart s || stopAnswered s then 0#1
      else s.ctlErr
    pos := if (writtenSlot s).isSome then (s.pos + 1) % 2 ^ s.cfg.aw else s.pos
    posGray := if (writtenSlot s).isSome then bin2gray ((s.pos + 1) % 2 ^ s.cfg.aw) else s.posGray
    mem :=
      if (writtenSlot s).isSome then
        Memory.write s.cfg.memInit s.mem s.pos (sampleOf s.inp.t.busRx1 s.inp.t.busRx2)
      else s.mem
    sync1 := s.sync1
    sync2 := s.sync2
    rdData := s.rdData }

/-- The next value of every register at an edge of `clk_c` whose inputs are already in `s.inp` (41_ring_buffer R144,
R148, 20_memory R72). -/
def consumerDomainNext (s : State) : Registers :=
  { registers s with
    sync1 := drawnCode s
    sync2 := s.sync1
    rdData := portByte (slotOf s.cfg s.inp.c.rdAddr) s }

end Sys2Proof.Machine
end

