-- ==== Sys2Proof/Machine/Trace.lean ====
section
/-! DEFINITION. Runs of several steps, and the trace notation of 30_encoding R102 as events. -/

namespace Sys2Proof.Machine

/-- `n` steps, ending at the first fault or refusal. -/
def runFor : Nat → State → Host.Outcome State Fault Refusal
  | 0, s => .next s
  | n + 1, s => andThen (step s) (runFor n)

/-- Runs a list of events, the environment's schedule being exactly that list. -/
def runEvents (es : List Event) (s : State) : Host.Outcome State Fault Refusal :=
  runFor es.length { s with schedule := es }

/-- One line of the trace notation (30_encoding R102). -/
inductive TraceLine where
  /-- `RESET`. -/
  | reset
  /-- `START`, and `START !tb` with `tbOk = false`. -/
  | start (tbOk : Bool)
  /-- `STOP`. -/
  | stop
  /-- `WAIT n`. -/
  | wait (n : Nat)
  /-- `TICK ok rx=(a,b,c) L=l`. -/
  | tickOk (a b c : Byte) (l : Nat)
  /-- `TICK fail st=s L=l`. -/
  | tickFail (status l : Nat)
  /-- `POS -> p`, at an edge of `clk_c`. -/
  | pos
  /-- `RD i -> v`. -/
  | rd (i : Nat)
  /-- `CEDGE n`. -/
  | cedge (n : Nat)
deriving DecidableEq, Repr

/-- The edges of one tick of latency `l`: the edges up to the deadline where it is not reached yet, the fire edge,
`l - 1` edges without an answer, and the answer. -/
def tickEvents (s : State) (answer : TIn) (l : Nat) : List Event :=
  let quiet := fun n => List.replicate n (Event.clkT TIn.quiet)
  (if reached s.cfg.tw s.now s.deadline then [] else quiet (edgesToDeadline s)) ++ quiet l ++ [.clkT answer]

/-- The events of a trace line in a given state. Where a line has an edge of `clk_c`, what the notation does not name
there comes from the environment `env`, by the number of the event: the draw of `H(c)` above all (41_ring_buffer R144),
and `rd_addr` where the line is not RD. A claim about a trace holds for every `env`. The model's choices: POS takes an
edge of `clk_c` of its own, and a command is presented at one edge, which accepts it where `ctl_ready = 1`. DESIGN
CHOICE, notes/assumptions/22.md. -/
def traceEvents (env : Nat → CIn) (s : State) : TraceLine → List Event
  | .reset => [.reset]
  | .start tbOk => [.clkT { TIn.commanding 1#1 with tbOk := tbOk }]
  | .stop => [.clkT (TIn.commanding 0#1)]
  | .wait n => List.replicate n (.clkT TIn.quiet)
  | .tickOk a b c l => tickEvents s (TIn.answering (busFrame a b c)) l
  | .tickFail status l => tickEvents s { TIn.quiet with busDone := true, busErr := true, busStatus := status } l
  | .pos => [.clkC { env s.edges with readPos := true }]
  | .rd i => [.clkC { env s.edges with rdAddr := i, readPos := false }]
  | .cedge n => (List.range n).map fun k => .clkC { env (s.edges + k) with readPos := false }

/-- Runs the lines of a trace in order, with what the notation leaves open taken from `env`. -/
def runTrace (env : Nat → CIn) : List TraceLine → State → Host.Outcome State Fault Refusal
  | [], s => .next s
  | l :: ls, s => andThen (runEvents (traceEvents env s l) s) (runTrace env ls)

end Sys2Proof.Machine
end

