-- ==== Sys2Proof/Safety.lean ====
section
/-! DEFINITION. The terms claims are made in: the invariants of reachable states (10_state R42), the quiet state after a
STOP has returned (42_scheduler R182), the relation of the crossing to the unwrapped count of writes (41_ring_buffer
R145 to R147), the consumer that loses nothing (43_external_interfaces R215), and the premises on the environment (R211,
70_reset_and_hazards R269). -/

namespace Sys2Proof.Safety

open Sys2Proof.Machine

/-- Every register holds a value of its width (10_state R20) and the ring memory its canonical form. -/
structure WidthsHold (s : State) : Prop where
  now : s.now < 2 ^ s.cfg.tw
  deadline : s.deadline < 2 ^ s.cfg.tw
  pos : s.pos < s.cfg.slots
  posGray : s.posGray < s.cfg.slots
  sync1 : s.sync1 < s.cfg.slots
  sync2 : s.sync2 < s.cfg.slots
  mem : Memory.wf s.cfg.memInit s.cfg.slots s.mem = true

/-- The invariants I1 to I5 of 10_state R42. I5's "a value `pos` has held" needs the history and is `Crossing`; here it
is "the code of an index". `held_last` and `held_codes` say what the model's own field `grayHeld` is. -/
structure Consistent (s : State) : Prop where
  i1 : s.stopPend = true → s.run = .idle ∧ s.seq = .exch
  i2 : s.run = .idle → s.seq = .exch → s.stopPend = true
  i3 : s.posGray = bin2gray s.pos
  i4 : s.busReq = true → s.seq = .exch
  i5_sync1 : ∃ q, q < s.cfg.slots ∧ s.sync1 = bin2gray q
  i5_sync2 : ∃ q, q < s.cfg.slots ∧ s.sync2 = bin2gray q
  held_last : s.grayHeld.getLast? = some s.posGray
  held_codes : ∀ g ∈ s.grayHeld, ∃ q, q < s.cfg.slots ∧ g = bin2gray q

/-- The invariant of every reachable state: a configuration the spec allows, widths, consistency. -/
structure Inv (s : State) : Prop where
  cfg : s.cfg.wf = true
  widths : WidthsHold s
  consistent : Consistent s

/-- Idle with nothing in flight and no request on the bus: the block after a STOP has returned (42_scheduler R182). -/
def Quiescent (s : State) : Prop :=
  s.run = .idle ∧ s.seq = .wait ∧ s.stopPend = false ∧ s.busReq = false

/-- What 42_scheduler R182 says does not change after a STOP has returned: `pos`, `pos_gray`, `mem`, `deadline`. -/
def SameRing (s t : State) : Prop :=
  t.pos = s.pos ∧ t.posGray = s.posGray ∧ t.mem = s.mem ∧ t.deadline = s.deadline

/-- An event at which no START is presented and no reset happens. -/
def noStart : Event → Bool
  | .clkT t => !(t.ctlValid && decide (t.ctlOp = 1#1))
  | .clkC _ => true
  | .both t _ _ => !(t.ctlValid && decide (t.ctlOp = 1#1))
  | .reset => false

/-- An event that is not a reset. -/
def noReset : Event → Bool
  | .clkT _ => true
  | .clkC _ => true
  | .both _ _ _ => true
  | .reset => false

/-- The Gray code of the `k`-th value of `pos`, counting writes from a reset at `pos = 0` without wrapping. -/
def codeOfCount (c : Config) (k : Nat) : Nat := bin2gray (k % c.slots)

/-- The crossing against the unwrapped count of writes since reset. `w` writes have been made; the codes `pos_gray`
held since the previous `clk_c` edge are those of the counts `h` to `w`; `sync1` holds the code of count `a` and `sync2`
of count `b`, with `b <= a <= h <= w`: every value of the crossing is one `pos` held (41_ring_buffer R145), and none is
ahead of the data (20_memory R70). -/
structure Crossing (s : State) (h w a b : Nat) : Prop where
  order_ba : b ≤ a
  order_ah : a ≤ h
  order_hw : h ≤ w
  pos : s.pos = w % s.cfg.slots
  posGray : s.posGray = codeOfCount s.cfg w
  held : s.grayHeld = (List.range (w + 1 - h)).map fun i => codeOfCount s.cfg (h + i)
  sync1 : s.sync1 = codeOfCount s.cfg a
  sync2 : s.sync2 = codeOfCount s.cfg b

/-- The tick-domain registers of 10_state R20 and the ring agree, whatever the consumer domain holds. -/
def SameTickDomain (s t : State) : Prop :=
  t.cfg = s.cfg ∧ t.now = s.now ∧ t.run = s.run ∧ t.deadline = s.deadline ∧ t.seq = s.seq ∧
    t.stopPend = s.stopPend ∧ t.busReq = s.busReq ∧ t.ctlRespValid = s.ctlRespValid ∧ t.ctlErr = s.ctlErr ∧
    t.pos = s.pos ∧ t.posGray = s.posGray ∧ t.mem = s.mem

/-- The timer is idle, or due and read as due, or due within a period: what holds while the lateness bound of
70_reset_and_hazards R269 is kept. -/
def OnSchedule (s : State) : Prop :=
  s.run = .idle ∨ reached s.cfg.tw s.now s.deadline = true ∨ edgesToDeadline s ≤ s.cfg.period

/-- A run's premises at one event: the transport answers only a request (43_external_interfaces R211) and the time
comparison is within its validity (70_reset_and_hazards R269). A claim that needs them takes them as a hypothesis. -/
def InContract (s : State) (e : Event) : Prop := transportDuty s e = true ∧ OnSchedule s

/-- An edge of `clk_t` at which no STOP is presented. -/
def noStop (t : TIn) : Bool := !(t.ctlValid && decide (t.ctlOp = 0#1))

/-- An edge of `clk_t` without a STOP at which the transport answers exactly when `answers` says so. -/
def answersWhen (answers : Bool) (t : TIn) : Bool := noStop t && (t.busDone == answers)

/-- An event with an edge of `clk_c`. -/
def hasConsumerEdge (e : Event) : Bool := (consumerInputs e).isSome

/-- A run of the events from `s` without a reset and without a WRITE: none of them stores a sample at the state it
meets. -/
def NoWriteOnRun (s : State) (es : List Event) : Prop :=
  ∀ n e v, es[n]? = some e → runFor n s = .next v → noReset e = true ∧ writtenBy v e = []

/-- The ring holds the most recent `N` of the samples written since reset, in order (41_ring_buffer R141, R142). -/
def HoldsTheLatest (s : State) (written : List Sample) : Prop :=
  ∀ k v, written[k]? = some v → written.length ≤ k + s.cfg.slots → readSlot s (k % s.cfg.slots) = v

/-- The block and its consumer against everything written since reset, with counts that do not wrap: `taken` is the
count of writes at the last finished poll's `p`. The finished polls copied exactly the first `taken` samples; a poll in
progress copies on from there, towards the count its `p` stands for, fewer than `N` writes later. -/
structure LossFree (y : System) (written : List Sample) (h a b taken : Nat) : Prop where
  crossing : Crossing y.block h written.length a b
  ring : HoldsTheLatest y.block written
  lastPos : y.consumer.lastPos = taken % y.block.cfg.slots
  shown : taken ≤ b
  copied : y.consumer.copied = written.take taken
  poll : ∀ q, y.consumer.poll = some q →
    ∃ p, q.p = p % y.block.cfg.slots ∧ p ≤ b ∧ p < taken + y.block.cfg.slots ∧ taken + q.out.length < p ∧
      q.out = (written.drop taken).take q.out.length

/-- The condition of 43_external_interfaces R215 at one event, in counts of writes: `total` have been made when the
event is over, `taken` at the previous poll's `p`, `shown` at the `p` that `pos_c` shows. A poll takes its `p` at most
`N - 1` writes after the previous one's; and the slot at `lastPos + i` is copied before `N - avail + i + 1` writes have
been made after `p`, where `p` stands for the count `taken + avail`. -/
structure SafeMove (y : System) (e : Event) (copy : Bool) (total taken shown : Nat) : Prop where
  cadence : ∀ c, consumerInputs e = some c → c.readPos = true → y.consumer.poll = none →
    shown ≤ taken + (y.block.cfg.slots - 1)
  pace : ∀ q, (y.consumer.sampled y.block e).poll = some q → (y.consumer.copies y.block e copy).isSome = true →
    total < taken + Consumer.avail y.block.cfg q.p y.consumer.lastPos +
      (y.block.cfg.slots - Consumer.avail y.block.cfg q.p y.consumer.lastPos + q.out.length + 1)

/-- The operations that can store a sample: WRITE, and the two that can complete a tick. -/
def storing : Instr → Bool
  | .tick => true
  | .rspAcq _ _ _ _ => true
  | .write _ => true
  | .start => false
  | .stop => false
  | .respOk => false
  | .respTimerArmFailure => false
  | .cmdAcq => false
  | .cursor _ => false
  | .acquire => false
  | .encode => false
  | .exchange => false
  | .decode _ _ _ => false
  | .truncate _ => false
  | .pos => false
  | .rd _ => false
  | .sync => false

/-- A ring of four slots and a period of ten cycles, the parameters of the spec's worked examples
(95_test_vectors, section 0). -/
def smallConfig : Config := { aw := 2, period := 10, tw := 32, memInit := 0, sw := 8 }

/-- The state right after reset in that configuration. -/
def small : State := State.resetOf smallConfig

end Sys2Proof.Safety
end

