-- ==== Sys2Proof/Certificates/Slice0/Obligations.lean ====
section
/-! DEFINITION. The statements about the model, each from the numbered rules of spec/. A statement about one operation is
about `exec`, the operation's own part of one edge (notes/assumptions/8.md); what an operation returns is in the model's
field `result` (notes/assumptions/7.md); which events come is in `schedule` (notes/assumptions/3.md). -/

open Sys2Proof Sys2Proof.Machine Sys2Proof.Safety

/-! ## Encodings -/

/-- 30_encoding R90 to R103: for every operation that has a bit encoding, with every operand its encoding admits,
decoding its word on its port gives the operation back. -/
def Obligations.DecodeOfEncode : Prop :=
  ∀ (c : Config) (i : Instr) (f : Frame),
    i.wf c = true → encode c.aw i = some f → decode c.aw f = .ok i

/-- 30_encoding R90 to R103: each word has one meaning on its port; encoding what was decoded gives the word back. -/
def Obligations.EncodeOfDecode : Prop :=
  ∀ (aw : Nat) (i : Instr) (f : Frame), decode aw f = .ok i → encode aw i = some f

/-- 30_encoding R100: every code of CTL, CRSP, BUSRX and GRAY is an operation of that format, BUSTX has the one
command and nothing else, and a word of another length is refused. -/
def Obligations.LegalWordsOfEachFormat : Prop :=
  ∀ (aw value : Nat),
    (∀ fmt, fmt = .ctl ∨ fmt = .crsp ∨ fmt = .busrx ∨ fmt = .gray → value < 2 ^ fmt.width aw →
      ∃ i, decode aw { format := fmt, nbits := fmt.width aw, value := value } = .ok i ∧ i.format = fmt) ∧
    (value < 2 ^ 24 →
      decode aw { format := .bustx, nbits := 24, value := value } =
        if value = 0x018000 then .ok .cmdAcq else .error .notTheCommand) ∧
    (∀ fmt nbits, nbits ≠ fmt.width aw →
      decode aw { format := fmt, nbits := nbits, value := value } = .error .wrongLength)

/-- 30_encoding R92, R93, R96 to R98: words written out from the spec's tables decode to the operations they stand
for. The response `AA FD 90` has `U0 = 0xAA`, `U1 = 0b111111`, `RAW_HI = 0b01`, `RAW_LO = 0x90`. -/
def Obligations.SpecWordsDecode : Prop :=
  decode 13 { format := .ctl, nbits := 1, value := 0b1 } = .ok .start ∧
  decode 13 { format := .ctl, nbits := 1, value := 0b0 } = .ok .stop ∧
  decode 13 { format := .crsp, nbits := 1, value := 0b0 } = .ok .respOk ∧
  decode 13 { format := .crsp, nbits := 1, value := 0b1 } = .ok .respTimerArmFailure ∧
  decode 13 { format := .bustx, nbits := 24, value := 0b000000011000000000000000 } = .ok .cmdAcq ∧
  decode 13 { format := .busrx, nbits := 24, value := 0b101010101111110110010000 } =
    .ok (.rspAcq 0xAA 0b111111 0b01 0x90) ∧
  decode 13 { format := .gray, nbits := 13, value := 0b1100000000000 } = .ok (.cursor 0x1800)

/-! ## Codec -/

/-- 40_codec R120: ENCODE returns `01 80 00` whatever the state, changes no register, and the three bytes stand on the
outputs at all times. The returned value is the model's field `result` (notes/assumptions/7.md), here and in the
statements of DECODE, TRUNCATE, ACQUIRE, EXCHANGE and POS. -/
def Obligations.EncodeReturnsTheCommand : Prop :=
  ∀ s : State,
    exec .encode s = .next { s with result := .frame 0x018000#24 } ∧
    (outputs s).busTx0 = 0x01#8 ∧ (outputs s).busTx1 = 0x80#8 ∧ (outputs s).busTx2 = 0x00#8

/-- 40_codec R122: DECODE returns `((rx1 & 0x03) << 8) | rx2` as a 10-bit number and changes no register. -/
def Obligations.DecodeReturnsTheReading : Prop :=
  ∀ (rx0 rx1 rx2 : Byte) (s : State), ∃ r : RawReading,
    exec (.decode rx0 rx1 rx2) s = .next { s with result := .raw r } ∧
    r.toNat = (rx1.toNat % 4) * 256 + rx2.toNat

/-- 40_codec R123: TRUNCATE returns `raw >> 2`, in 0..255, and changes no register. -/
def Obligations.TruncateReturnsTheSample : Prop :=
  ∀ (raw : RawReading) (s : State), ∃ v : Sample,
    exec (.truncate raw) s = .next { s with result := .sample v } ∧ v.toNat = raw.toNat / 4 ∧ v.toNat ≤ 255

/-- 40_codec R125: DECODE followed by TRUNCATE is the bits `{rx1[1:0], rx2[7:2]}`, and two edges of `clk_t` whose
answers agree on those bits leave every register of the block the same, whatever else the three bytes hold. -/
def Obligations.SampleIsTheTopBits : Prop :=
  (∀ rx1 rx2 : Byte, truncateReading (decodeReading rx1 rx2) = rx1.extractLsb' 0 2 ++ rx2.extractLsb' 2 6) ∧
  (∀ (s : State) (t : TIn) (rx0 rx1 rx2 : Byte),
    rx1.extractLsb' 0 2 = t.busRx1.extractLsb' 0 2 → rx2.extractLsb' 2 6 = t.busRx2.extractLsb' 2 6 →
    ∃ u v, clkTEdge t s = .next u ∧
      clkTEdge { t with busRx0 := rx0, busRx1 := rx1, busRx2 := rx2 } s = .next v ∧ registers v = registers u)

/-- 40_codec R124: ACQUIRE begins with one request for the command frame, waits while the transport has not answered,
and returns the sample, or BusError with the status on the `SW` wires; it writes no other register. -/
def Obligations.AcquireOverOneTick : Prop :=
  ∀ s : State,
    (s.seq = .wait → exec .acquire s = .next { s with busReq := true, result := .frame 0x018000#24 }) ∧
    (s.seq = .exch → s.inp.t.busDone = false → exec .acquire s = .next s) ∧
    (s.seq = .exch → s.inp.t.busDone = true → s.inp.t.busErr = false →
      exec .acquire s =
        .next { s with result := .sample (truncateReading (decodeReading s.inp.t.busRx1 s.inp.t.busRx2)) }) ∧
    (s.seq = .exch → s.inp.t.busDone = true → s.inp.t.busErr = true →
      exec .acquire s = .next { s with result := .busError (s.inp.t.busStatus % 2 ^ s.cfg.sw) })

/-- 40_codec R121: EXCHANGE is one request pulse, then nothing until `bus_done`, then the transport's answer. CMD_ACQ is
that pulse with the command frame (the model's reading of the row, notes/assumptions/9.md). -/
def Obligations.ExchangeHandshake : Prop :=
  ∀ s : State,
    exec .cmdAcq s = .next { s with busReq := true, result := .frame 0x018000#24 } ∧
    (s.seq = .wait → exec .exchange s = .next { s with busReq := true, result := .frame 0x018000#24 }) ∧
    (s.seq = .exch → s.inp.t.busDone = false → exec .exchange s = .next s) ∧
    (s.seq = .exch → s.inp.t.busDone = true → s.inp.t.busErr = false →
      exec .exchange s =
        .next { s with result := .answer (.bytes s.inp.t.busRx0 s.inp.t.busRx1 s.inp.t.busRx2) }) ∧
    (s.seq = .exch → s.inp.t.busDone = true → s.inp.t.busErr = true →
      exec .exchange s = .next { s with result := .answer (.busError (s.inp.t.busStatus % 2 ^ s.cfg.sw)) })

/-- 30_encoding R93, R95, 42_scheduler R176: a response frame sampled with a tick in flight writes `G[9:2]` at `pos`,
advances the cursor, moves the deadline by `P` and ends the tick; a deferred STOP is answered at the same edge. With no
tick in flight it is ignored. That the row RSP_ACQ is the completion with this frame is the model's reading
(notes/assumptions/9.md). -/
def Obligations.ResponseCompletesTheTick : Prop :=
  ∀ (u0 : BitVec 8) (u1 : BitVec 6) (hi : BitVec 2) (lo : BitVec 8) (s : State),
    (s.seq = .exch →
      exec (.rspAcq u0 u1 hi lo) s = .next { s with
        mem := Memory.write s.cfg.memInit s.mem s.pos (hi ++ lo.extractLsb' 2 6)
        pos := (s.pos + 1) % 2 ^ s.cfg.aw
        posGray := bin2gray ((s.pos + 1) % 2 ^ s.cfg.aw)
        grayHeld := s.grayHeld ++ [bin2gray ((s.pos + 1) % 2 ^ s.cfg.aw)]
        deadline := (s.deadline + s.cfg.period) % 2 ^ s.cfg.tw
        seq := .wait
        stopPend := false
        ctlRespValid := s.stopPend || s.ctlRespValid
        ctlErr := if s.stopPend then 0#1 else s.ctlErr
        result := .sample (hi ++ lo.extractLsb' 2 6) }) ∧
    (s.seq = .wait → exec (.rspAcq u0 u1 hi lo) s = .next s)

/-! ## Scheduler and control port -/

/-- 42_scheduler R172: START accepted from Idle arms the timer one period ahead, or is answered TimerArmFailure and
changes nothing else; while Running it is answered OK and changes nothing else; with a STOP pending it is not accepted. -/
def Obligations.StartOperation : Prop :=
  ∀ s : State,
    (s.stopPend = false → s.run = .idle → s.inp.t.tbOk = true →
      exec .start s = .next { s with
        run := .running, deadline := (s.now + s.cfg.period) % 2 ^ s.cfg.tw, ctlRespValid := true, ctlErr := 0#1 }) ∧
    (s.stopPend = false → s.run = .idle → s.inp.t.tbOk = false →
      exec .start s = .next { s with ctlRespValid := true, ctlErr := 1#1 }) ∧
    (s.stopPend = false → s.run = .running →
      exec .start s = .next { s with ctlRespValid := true, ctlErr := 0#1 }) ∧
    (s.stopPend = true → exec .start s = .next s)

/-- 42_scheduler R173: STOP accepted while Idle is answered OK; while Running it disarms the timer and is answered OK at
once, or, with a tick in flight that does not end at this edge, leaves its answer pending; with a STOP pending it is not
accepted. -/
def Obligations.StopOperation : Prop :=
  ∀ s : State,
    (s.stopPend = false → s.run = .idle →
      exec .stop s = .next { s with ctlRespValid := true, ctlErr := 0#1 }) ∧
    (s.stopPend = false → s.run = .running → (s.seq = .wait ∨ s.inp.t.busDone = true) →
      exec .stop s = .next { s with run := .idle, ctlRespValid := true, ctlErr := 0#1 }) ∧
    (s.stopPend = false → s.run = .running → s.seq = .exch → s.inp.t.busDone = false →
      exec .stop s = .next { s with run := .idle, stopPend := true }) ∧
    (s.stopPend = true → exec .stop s = .next s)

/-- 42_scheduler R181: after START a second START changes no register except the response pair; after STOP a second
STOP likewise. -/
def Obligations.StartAndStopAreIdempotent : Prop :=
  ∀ s : State,
    (s.run = .running → s.stopPend = false →
      ∃ t, exec .start s = .next t ∧
        registers t = { registers s with ctlRespValid := t.ctlRespValid, ctlErr := t.ctlErr }) ∧
    (s.run = .idle →
      ∃ t, exec .stop s = .next t ∧
        registers t = { registers s with ctlRespValid := t.ctlRespValid, ctlErr := t.ctlErr })

/-- 30_encoding R97: the two response codes, 0 for OK and 1 for TimerArmFailure, each with the pulse (the model's reading
of the two rows as operations, notes/assumptions/9.md). -/
def Obligations.ResponseCodes : Prop :=
  ∀ s : State,
    exec .respOk s = .next { s with ctlRespValid := true, ctlErr := 0#1 } ∧
    exec .respTimerArmFailure s = .next { s with ctlRespValid := true, ctlErr := 1#1 }

/-- 42_scheduler R174, R175: where the timer is Running, no tick is in flight, `now` is at or after the deadline and no
STOP is accepted, the tick fires: one request, phase EXCH, deadline untouched. -/
def Obligations.TickFires : Prop :=
  ∀ s : State,
    s.run = .running → s.seq = .wait → reached s.cfg.tw s.now s.deadline = true →
    ¬ (s.inp.t.ctlValid = true ∧ s.stopPend = false ∧ s.inp.t.ctlOp = 0#1) →
    exec .tick s = .next { s with seq := .exch, busReq := true, result := .frame 0x018000#24 }

/-- 42_scheduler R176, R177: the completion of a tick whose exchange succeeded. -/
def Obligations.TickCompletesWithSample : Prop :=
  ∀ s : State, s.seq = .exch → s.inp.t.busDone = true → s.inp.t.busErr = false →
    exec .tick s = .next { s with
      mem := Memory.write s.cfg.memInit s.mem s.pos (sampleOf s.inp.t.busRx1 s.inp.t.busRx2)
      pos := (s.pos + 1) % 2 ^ s.cfg.aw
      posGray := bin2gray ((s.pos + 1) % 2 ^ s.cfg.aw)
      grayHeld := s.grayHeld ++ [bin2gray ((s.pos + 1) % 2 ^ s.cfg.aw)]
      deadline := (s.deadline + s.cfg.period) % 2 ^ s.cfg.tw
      seq := .wait
      stopPend := false
      ctlRespValid := s.stopPend || s.ctlRespValid
      ctlErr := if s.stopPend then 0#1 else s.ctlErr
      result := .sample (sampleOf s.inp.t.busRx1 s.inp.t.busRx2) }

/-- 42_scheduler R180, 60_exceptions R231: the completion of a tick whose exchange failed writes nothing; the deadline
advances as always, and a deferred STOP is answered OK. -/
def Obligations.FailedTickWritesNothing : Prop :=
  ∀ s : State, s.seq = .exch → s.inp.t.busDone = true → s.inp.t.busErr = true →
    exec .tick s = .next { s with
      deadline := (s.deadline + s.cfg.period) % 2 ^ s.cfg.tw
      seq := .wait
      stopPend := false
      ctlRespValid := s.stopPend || s.ctlRespValid
      ctlErr := if s.stopPend then 0#1 else s.ctlErr
      result := .busError (s.inp.t.busStatus % 2 ^ s.cfg.sw) }

/-- 42_scheduler R174, 60_exceptions R249: the tick waits, changing nothing, for its answer, for its deadline, or while
Idle. -/
def Obligations.TickWaits : Prop :=
  ∀ s : State,
    ((s.seq = .exch ∧ s.inp.t.busDone = false) ∨
      (s.seq = .wait ∧ (s.run = .idle ∨ reached s.cfg.tw s.now s.deadline = false))) →
    exec .tick s = .next s

/-! ## Ring and crossing -/

/-- 41_ring_buffer R140, 20_memory R65: WRITE stores at `pos` and advances `pos` and `pos_gray` together; the slot then
reads the sample and every other slot reads as before. -/
def Obligations.WriteOperation : Prop :=
  ∀ (v : Sample) (s : State), Memory.wf s.cfg.memInit s.cfg.slots s.mem = true →
    ∃ t, exec (.write v) s = .next t ∧
      t = { s with
        mem := t.mem
        pos := (s.pos + 1) % 2 ^ s.cfg.aw
        posGray := bin2gray ((s.pos + 1) % 2 ^ s.cfg.aw)
        grayHeld := s.grayHeld ++ [bin2gray ((s.pos + 1) % 2 ^ s.cfg.aw)] } ∧
      readSlot t s.pos = v ∧ ∀ a, a ≠ s.pos → readSlot t a = readSlot s a

/-- 41_ring_buffer R143: POS returns `gray2bin(sync2)` and changes no register. -/
def Obligations.PosOperation : Prop :=
  ∀ s : State, exec .pos s = .next { s with result := .index (gray2bin s.cfg.aw s.sync2) }

/-- 41_ring_buffer R148, 20_memory R71, R72: RD gives the content of the slot on the `AW` wires of `rd_addr`, and the
environment's free byte where an unordered write hits the slot (notes/assumptions/6.md); it changes nothing else. -/
def Obligations.RdOperation : Prop :=
  ∀ (addr : Nat) (s : State),
    (s.inp.race ≠ some (addr % 2 ^ s.cfg.aw) →
      exec (.rd addr) s = .next { s with rdData := readSlot s (addr % 2 ^ s.cfg.aw) }) ∧
    (s.inp.race = some (addr % 2 ^ s.cfg.aw) →
      exec (.rd addr) s = .next { s with rdData := s.inp.c.junk })

/-- 41_ring_buffer R144: SYNC moves `sync1` to `sync2` and a code of `H(c)` to `sync1`; if `pos_gray` did not change
since the previous edge, that code is `pos_gray`. The draw is free: every code of `H(c)` is captured for some choice of
the environment, which the model takes from the input `pick` (notes/assumptions/5.md). -/
def Obligations.SyncOperation : Prop :=
  (∀ s : State, s.grayHeld ≠ [] →
    ∃ g, g ∈ s.grayHeld ∧
      exec .sync s = .next { s with sync2 := s.sync1, sync1 := g, grayHeld := [s.posGray] } ∧
      (s.grayHeld = [s.posGray] → g = s.posGray)) ∧
  (∀ (s : State) (g : Nat), g ∈ s.grayHeld →
    ∃ pick, exec .sync { s with inp := { s.inp with c := { s.inp.c with pick := pick } } } =
      .next { s with
        inp := { s.inp with c := { s.inp.c with pick := pick } }
        sync2 := s.sync1, sync1 := g, grayHeld := [s.posGray] })

/-- 30_encoding R98, 41_ring_buffer R144 (the model's reading, notes/assumptions/9.md and 12.md): a cursor code that
`pos_gray` held since the previous edge is captured; a code it did not hold is not. -/
def Obligations.CursorOperation : Prop :=
  ∀ (g : Nat) (s : State),
    (g ∈ s.grayHeld →
      exec (.cursor g) s = .next { s with sync2 := s.sync1, sync1 := g, grayHeld := [s.posGray] }) ∧
    (g ∉ s.grayHeld → exec (.cursor g) s = .next s)

/-- 41_ring_buffer R141: after `k` writes from `pos0`, `pos` is `(pos0 + k) mod N`, and the `j`-th of them is in slot
`(pos0 + j) mod N` unless one of the last writes has replaced it; slots no write reached keep their content. Only a
successful tick is a write: one whose exchange failed changes neither `pos` nor the ring. -/
def Obligations.RotationLaw : Prop :=
  ∀ (vs : List Sample) (s : State),
    s.pos < s.cfg.slots → Memory.wf s.cfg.memInit s.cfg.slots s.mem = true →
    ∃ t, runOps (vs.map Instr.write) s = .next t ∧
      t.pos = (s.pos + vs.length) % s.cfg.slots ∧
      (∀ j v, vs[j]? = some v → vs.length ≤ j + s.cfg.slots → readSlot t ((s.pos + j) % s.cfg.slots) = v) ∧
      (∀ a, a < s.cfg.slots → (∀ j, j < vs.length → a ≠ (s.pos + j) % s.cfg.slots) → readSlot t a = readSlot s a) ∧
      (s.seq = .exch → s.inp.t.busDone = true → s.inp.t.busErr = true →
        ∃ u, exec .tick s = .next u ∧ u.pos = s.pos ∧ u.mem = s.mem)

/-- 30_encoding R98, 00_scope R15: `bin2gray` and `gray2bin` are inverse on `AW` bits. -/
def Obligations.GrayCodeIsInvertible : Prop :=
  ∀ aw b : Nat, b < 2 ^ aw →
    bin2gray b < 2 ^ aw ∧ gray2bin aw (bin2gray b) = b ∧ gray2bin aw b < 2 ^ aw ∧ bin2gray (gray2bin aw b) = b

/-- 30_encoding R98, 10_state R29: successive cursor values, the wrap included, have codes that differ in exactly one
bit. -/
def Obligations.GrayCodeChangesOneBit : Prop :=
  ∀ aw b : Nat, 1 ≤ aw → b < 2 ^ aw →
    ∃ i, i < aw ∧ bin2gray b ^^^ bin2gray ((b + 1) % 2 ^ aw) = 2 ^ i

/-- 00_scope R15: the bits of `gray2bin`: the top bit is the code's, and each lower bit is the code's bit exclusive-or
the bit above. -/
def Obligations.GrayToBinaryBitByBit : Prop :=
  ∀ aw g : Nat, g < 2 ^ aw →
    (∀ i, i + 1 = aw → (gray2bin aw g).testBit i = g.testBit i) ∧
    (∀ i, i + 1 < aw → (gray2bin aw g).testBit i = Bool.xor (g.testBit i) ((gray2bin aw g).testBit (i + 1)))

/-- 00_scope R15, 42_scheduler R186: the comparison of time is right across the wrap: a time `m` cycles after the
deadline has reached it for every `m` below half the range, and a time `m` cycles before it has not. -/
def Obligations.ReachedAcrossTheWrap : Prop :=
  ∀ tw d m : Nat, 1 ≤ tw → d < 2 ^ tw →
    (m < 2 ^ (tw - 1) → reached tw ((d + m) % 2 ^ tw) d = true) ∧
    (1 ≤ m → m ≤ 2 ^ (tw - 1) → reached tw d ((d + m) % 2 ^ tw) = false)

/-! ## Frames -/

/-- What the operations that store nothing leave unchanged: every slot of the ring, the cursor and its code, the time,
and, per operation, every register its rule does not write (10_state R36, 40_codec R120 to R124, 41_ring_buffer R143,
R144, R148, 42_scheduler R172, R173). -/
def Obligations.NonStoringOperationsFrame : Prop :=
  ∀ (i : Instr) (s t : State), storing i = false → exec i s = .next t →
    (∀ a, readSlot t a = readSlot s a) ∧
    t.cfg = s.cfg ∧ t.now = s.now ∧ t.pos = s.pos ∧ t.posGray = s.posGray ∧ t.seq = s.seq ∧
    (i ≠ .start → i ≠ .stop → t.run = s.run) ∧
    (i ≠ .start → t.deadline = s.deadline) ∧
    (i ≠ .stop → t.stopPend = s.stopPend) ∧
    (i ≠ .cmdAcq → i ≠ .acquire → i ≠ .exchange → t.busReq = s.busReq) ∧
    (i.format ≠ .ctl → i.format ≠ .crsp → t.ctlRespValid = s.ctlRespValid ∧ t.ctlErr = s.ctlErr) ∧
    (i ≠ .sync → i.format ≠ .gray → t.sync1 = s.sync1 ∧ t.sync2 = s.sync2) ∧
    ((∀ a, i ≠ .rd a) → t.rdData = s.rdData)

/-- What the operations that can store a sample leave unchanged: every slot but `pos`, the slot stored to; the time,
AcquisitionState and the consumer's registers; WRITE changes the ring and its cursor alone (41_ring_buffer R140,
42_scheduler R175, R176). -/
def Obligations.StoringOperationsFrame : Prop :=
  ∀ (i : Instr) (s t : State), storing i = true → exec i s = .next t →
    Memory.wf s.cfg.memInit s.cfg.slots s.mem = true →
    (∀ a, a ≠ s.pos → readSlot t a = readSlot s a) ∧
    t.cfg = s.cfg ∧ t.now = s.now ∧ t.run = s.run ∧
    t.sync1 = s.sync1 ∧ t.sync2 = s.sync2 ∧ t.rdData = s.rdData ∧
    (∀ v, i = .write v →
      t.deadline = s.deadline ∧ t.seq = s.seq ∧ t.stopPend = s.stopPend ∧ t.busReq = s.busReq ∧
        t.ctlRespValid = s.ctlRespValid ∧ t.ctlErr = s.ctlErr) ∧
    (i ≠ .tick → t.busReq = s.busReq)

/-! ## One edge and one step -/

/-- 42_scheduler R170, 30_encoding R96: at an edge of `clk_t` that accepts a command and neither ends nor starts a tick,
step runs the operation that the code on the control port decodes to, between the edge's defaults and the count of
`now`. -/
def Obligations.StepRunsTheDecodedCommand : Prop :=
  ∀ (s : State) (t : TIn) (rest : List Event) (i : Instr),
    s.cfg.wf = true → s.schedule = .clkT t :: rest →
    t.ctlValid = true → s.stopPend = false → complete (sampleT t s) = false → fire (sampleT t s) = false →
    decode s.cfg.aw { format := .ctl, nbits := 1, value := t.ctlOp.toNat } = .ok i →
    step s = andThen
      (exec i { s with schedule := rest, edges := s.edges + 1, inp := { s.inp with t := t },
                       busReq := false, ctlRespValid := false })
      fun u => .next { u with now := (u.now + 1) % 2 ^ u.cfg.tw }

/-- 42_scheduler R170, R176, 30_encoding R93: at an edge of `clk_t` with a tick in flight, `bus_done = 1` and
`bus_err = 0` and no command, step runs the operation that the three response bytes decode to. -/
def Obligations.StepRunsTheDecodedResponse : Prop :=
  ∀ (s : State) (t : TIn) (rest : List Event) (i : Instr),
    s.cfg.wf = true → s.schedule = .clkT t :: rest →
    s.seq = .exch → t.busDone = true → t.busErr = false → t.ctlValid = false →
    decodeBytes .busrx [t.busRx0, t.busRx1, t.busRx2] = .ok i →
    step s = andThen
      (exec i { s with schedule := rest, edges := s.edges + 1, inp := { s.inp with t := t },
                       busReq := false, ctlRespValid := false })
      fun u => .next { u with now := (u.now + 1) % 2 ^ u.cfg.tw }

/-- 42_scheduler R170, R174, R180: at an edge of `clk_t` without a command that fires a tick, or ends one whose exchange
failed, step runs TICK. -/
def Obligations.StepRunsTheTick : Prop :=
  ∀ (s : State) (t : TIn) (rest : List Event),
    s.cfg.wf = true → s.schedule = .clkT t :: rest → t.ctlValid = false →
    (fire (sampleT t s) = true ∨ (s.seq = .exch ∧ t.busDone = true ∧ t.busErr = true)) →
    step s = andThen
      (exec .tick { s with schedule := rest, edges := s.edges + 1, inp := { s.inp with t := t },
                           busReq := false, ctlRespValid := false })
      fun u => .next { u with now := (u.now + 1) % 2 ^ u.cfg.tw }

/-- 41_ring_buffer R143, R144, R148, 30_encoding R98: at an edge of `clk_c` step runs SYNC and RD of the slot on
`rd_addr`, after POS where the consumer samples `pos_c`; and SYNC is the operation that the cursor code it captures
decodes to on the crossing (the model's reading of the row CURSOR, notes/assumptions/9.md). -/
def Obligations.StepRunsTheConsumerEdge : Prop :=
  (∀ (s : State) (c : CIn) (rest : List Event),
    s.cfg.wf = true → s.schedule = .clkC c :: rest →
    step s =
      (let s' := { s with schedule := rest, edges := s.edges + 1, inp := { s.inp with c := c, race := none } }
       let edge := fun u => andThen (exec .sync u) fun v => exec (.rd c.rdAddr) v
       if c.readPos then andThen (exec .pos s') edge else edge s')) ∧
  (∀ (s : State) (c : CIn) (rest : List Event) (i : Instr),
    s.cfg.wf = true → s.schedule = .clkC c :: rest → c.readPos = false → s.grayHeld ≠ [] →
    decode s.cfg.aw { format := .gray, nbits := s.cfg.aw, value := drawnCode (sampleC none c s) } = .ok i →
    step s = andThen
      (exec i { s with schedule := rest, edges := s.edges + 1, inp := { s.inp with c := c, race := none } })
      (exec (.rd c.rdAddr)))

/-- 42_scheduler R170: running an edge's operations one after the other gives every register the value of the
simultaneous assignments, in every state: each expression reads pre-edge values and sampled inputs only, the later part
wins, and a register no part writes keeps its value. -/
def Obligations.TickEdgeIsSimultaneous : Prop :=
  ∀ (s : State) (t : TIn), ∃ u, clkTEdge t s = .next u ∧ registers u = tickDomainNext (sampleT t s)

/-- 41_ring_buffer R144, R148: the same for an edge of `clk_c`. -/
def Obligations.ConsumerEdgeIsSimultaneous : Prop :=
  ∀ (s : State) (c : CIn) (race : Option Nat),
    ∃ u, clkCEdge race c s = .next u ∧ registers u = consumerDomainNext (sampleC race c s)

/-- 42_scheduler R184: the complete list of transitions of (`run`, `seq`), with the `stop_pend` it names. -/
def Obligations.StateTransitions : Prop :=
  ∀ (s u : State) (t : TIn), Consistent s → clkTEdge t s = .next u →
    (s.run = .idle → s.seq = .wait →
      u.seq = .wait ∧ u.run = if isStart (sampleT t s) && t.tbOk then .running else .idle) ∧
    (s.run = .running → s.seq = .wait →
      if isStop (sampleT t s) then u.run = .idle ∧ u.seq = .wait
      else if reached s.cfg.tw s.now s.deadline then u.run = .running ∧ u.seq = .exch
      else u.run = .running ∧ u.seq = .wait) ∧
    (s.run = .running → s.seq = .exch →
      if t.busDone then u.seq = .wait ∧ u.run = if isStop (sampleT t s) then .idle else .running
      else if isStop (sampleT t s) then u.run = .idle ∧ u.seq = .exch ∧ u.stopPend = true
      else u.run = .running ∧ u.seq = .exch) ∧
    (s.run = .idle → s.seq = .exch →
      if t.busDone then u.run = .idle ∧ u.seq = .wait ∧ u.stopPend = false
      else u.run = .idle ∧ u.seq = .exch)

/-- 30_encoding R97, 60_exceptions R232: the host is answered TimerArmFailure exactly by a START accepted from Idle with
`tb_ok = 0`; then `run` stays 0. A STOP is never answered with 1. -/
def Obligations.OnlyAFailedStartIsAnsweredWithOne : Prop :=
  ∀ (s u : State) (t : TIn), clkTEdge t s = .next u →
    ((u.ctlRespValid = true ∧ u.ctlErr = 1#1) ↔
      (t.ctlValid = true ∧ s.stopPend = false ∧ t.ctlOp = 1#1 ∧ s.run = .idle ∧ t.tbOk = false)) ∧
    (u.ctlRespValid = true → u.ctlErr = 1#1 → u.run = .idle)

/-- 10_state R26, 42_scheduler R174: an edge of `clk_t` fires exactly where the timer is Running, no tick is in flight,
`now` is at or after the deadline and no STOP is accepted; the request pulse stands after exactly those edges, with the
tick in flight. -/
def Obligations.RequestPulseExactlyAfterAFire : Prop :=
  ∀ (s u : State) (t : TIn), clkTEdge t s = .next u →
    (u.busReq = true ↔
      (s.run = .running ∧ s.seq = .wait ∧ timeSince s.cfg.tw s.now s.deadline < 2 ^ (s.cfg.tw - 1) ∧
        ¬ (t.ctlValid = true ∧ s.stopPend = false ∧ t.ctlOp = 0#1))) ∧
    (u.busReq = true → u.seq = .exch) ∧ (s.seq = .wait → u.seq = .exch → u.busReq = true)

/-- 20_memory R66, R68, 41_ring_buffer R149: an edge of `clk_c` changes no register of the tick domain and no slot. -/
def Obligations.ConsumerEdgeLeavesTheTickDomain : Prop :=
  ∀ (s u : State) (c : CIn) (race : Option Nat), clkCEdge race c s = .next u →
    SameTickDomain s u ∧ ∀ a, readSlot u a = readSlot s a

/-- 20_memory R74, 41_ring_buffer R140: two machines that agree on the tick domain still agree after the same edge of
`clk_t`, whatever the consumer domain holds in each: nothing flows from the consumer to the producer (00_scope R4). -/
def Obligations.TickDomainIgnoresTheConsumer : Prop :=
  ∀ (s s' u u' : State) (t : TIn), SameTickDomain s s' →
    clkTEdge t s = .next u → clkTEdge t s' = .next u' → SameTickDomain u u'

/-- 20_memory R72: a read of the slot that an unordered edge of `clk_t` writes returns the environment's free byte,
whatever it is, and the slot itself takes the written sample. That the unordered pair is one event run in either order
is the model's reading (notes/assumptions/4.md), and that the byte is the input `junk` its choice (6.md). -/
def Obligations.CollidingReadReturnsAnyByte : Prop :=
  ∀ (s : State) (t : TIn) (c : CIn) (tFirst : Bool) (rest : List Event),
    s.cfg.wf = true → s.pos < s.cfg.slots → Memory.wf s.cfg.memInit s.cfg.slots s.mem = true →
    s.schedule = .both t c tFirst :: rest →
    s.seq = .exch → t.busDone = true → t.busErr = false → c.rdAddr % 2 ^ s.cfg.aw = s.pos →
    ∃ u, step s = .next u ∧ u.rdData = c.junk ∧ readSlot u s.pos = sampleOf t.busRx1 t.busRx2

/-! ## Invariants, reset, configuration -/

/-- 10_state R20, R42: every step keeps the widths of the registers, the invariants I1 to I4, and that both synchroniser
stages hold codes of indices. (I5, that they hold codes of values `pos` has held, is CrossingKeepsTheOrder.) The
canonical form of the ring and the list of codes held are the model's own (notes/assumptions/17.md, 5.md). -/
def Obligations.StepKeepsTheInvariant : Prop :=
  ∀ s t : State, Inv s → step s = .next t → Inv t

/-- 10_state R42, R44: the invariant holds right after reset, in every configuration 00_scope R12 allows, and so does
the relation of the crossing to the count of writes, at count 0, and that of the consumer, with `lastPos` initially 0
(43_external_interfaces R214), to what was written, which is nothing. -/
def Obligations.ResetHasTheInvariant : Prop :=
  Inv State.reset ∧ Crossing State.reset 0 0 0 0 ∧
  ∀ c : Config, c.wf = true →
    Inv (State.resetOf c) ∧ Crossing (State.resetOf c) 0 0 0 0 ∧ LossFree (System.resetOf c) [] 0 0 0 0

/-- 10_state R44: the reset value of every register, every slot at MEM_INIT, and the derived outputs. -/
def Obligations.ResetValues : Prop :=
  ∀ c : Config,
    registers (State.resetOf c) =
      { now := 0, run := .idle, deadline := 0, seq := .wait, stopPend := false, busReq := false,
        ctlRespValid := false, ctlErr := 0#1, pos := 0, posGray := 0, mem := [], sync1 := 0, sync2 := 0,
        rdData := 0x00#8 } ∧
    (∀ a, readSlot (State.resetOf c) a = c.memInit) ∧
    (outputs (State.resetOf c)).ctlReady = true ∧ (outputs (State.resetOf c)).running = false ∧
    (outputs (State.resetOf c)).posC = 0

/-- 70_reset_and_hazards R260, R262: a reset at any time gives every register its reset value and forgets a tick in
flight and a deferred STOP. -/
def Obligations.ResetEvent : Prop :=
  ∀ (s : State) (rest : List Event), s.cfg.wf = true → s.schedule = .reset :: rest →
    step s = .next { State.resetOf s.cfg with schedule := rest, edges := s.edges + 1 }

/-- 00_scope R12, 93_implementation_defined U15: exactly the configurations that break a constraint are refused; that
`step` is what refuses them is the model's choice (notes/assumptions/18.md). -/
def Obligations.BadConfigurationIsRefused : Prop :=
  ∀ s : State,
    step s = .refused .badConfiguration ↔
      ¬ (1 ≤ s.cfg.aw ∧ 1 ≤ s.cfg.period ∧ 2 ≤ s.cfg.tw ∧ s.cfg.period < 2 ^ (s.cfg.tw - 2))

/-- 60_exceptions R230, R234: no error halts the block and no other failure exists: in a configuration the spec allows,
every step answers a next state. -/
def Obligations.NoErrorHaltsTheBlock : Prop :=
  ∀ s : State, s.cfg.wf = true → ∃ t, step s = .next t

/-! ## Runs -/

/-- 42_scheduler R173, R176: at the edge that answers a STOP, at once or deferred, the answer is OK and the block is
quiet: Idle, no tick in flight, no request. -/
def Obligations.StopAnswerLeavesTheBlockQuiet : Prop :=
  ∀ (s u : State) (t : TIn), Consistent s → clkTEdge t s = .next u → stopAnswered (sampleT t s) = true →
    Quiescent u ∧ u.ctlRespValid = true ∧ u.ctlErr = 0#1

/-- 42_scheduler R182: in any run, after the edge that answers a STOP, at once or deferred, and until the next START or
reset, `bus_req` is never 1, `seq` is WAIT, and `pos`, `pos_gray`, `mem` and `deadline` do not change. The events after
the answer are arbitrary, edges of both clocks in any order, so this holds after each of their prefixes. -/
def Obligations.StopGuarantee : Prop :=
  ∀ (s : State) (e : Event) (t : TIn) (es rest : List Event),
    Inv s → s.schedule = e :: (es ++ rest) → tickInputs e = some t → stopAnswered (sampleT t s) = true →
    (∀ e' ∈ es, noStart e' = true) →
    ∃ u v, step s = .next u ∧ u.ctlRespValid = true ∧ u.ctlErr = 0#1 ∧
      runFor es.length u = .next v ∧ Quiescent v ∧ SameRing u v

/-- 42_scheduler R172, 70_reset_and_hazards R273: after a START accepted from Idle the first deadline comes exactly `P`
edges of `clk_t` later, whatever edges of `clk_c` lie between and whatever further STARTs are presented; no request is
made before it. -/
def Obligations.FirstTickOnePeriodAfterStart : Prop :=
  ∀ (s : State) (t : TIn) (ts : List TIn) (es rest : List Event),
    Inv s → s.run = .idle → s.seq = .wait → s.stopPend = false →
    t.ctlValid = true → t.ctlOp = 1#1 → t.tbOk = true →
    s.schedule = es ++ rest → (∀ e ∈ es, noReset e = true) →
    tickTrain es = t :: ts → (t :: ts).length = s.cfg.period → (∀ t' ∈ ts, noStop t' = true) →
    ∃ u, runFor es.length s = .next u ∧
      u.run = .running ∧ u.seq = .wait ∧ u.now = (s.now + s.cfg.period) % 2 ^ s.cfg.tw ∧
      u.deadline = u.now ∧ u.schedule = rest ∧
      ∀ n v, n ≤ es.length → runFor n s = .next v → v.busReq = false

/-- 42_scheduler R178, R179: the recurrence of the fire edges, counted in edges of `clk_t`, whatever edges of `clk_c` lie
between. From a state that is about to fire with lateness `l`, a tick of latency `L` is followed by the next fire
`max(L + 1, P - l)` edges later, whatever the answer and whatever STARTs are presented, with deadline `P` further and
lateness `l + max(L + 1, P - l) - P`; the request stands after the first of those edges and after no other. -/
def Obligations.FireEdgesRecurrence : Prop :=
  ∀ (s : State) (es rest : List Event) (L : Nat),
    Inv s → s.run = .running → s.seq = .wait → reached s.cfg.tw s.now s.deadline = true →
    s.schedule = es ++ rest → (∀ e ∈ es, noReset e = true) →
    1 ≤ L → (tickTrain es).length = max (L + 1) (s.cfg.period - lateness s) →
    lateness s + (tickTrain es).length < s.cfg.period + 2 ^ (s.cfg.tw - 1) →
    (∀ j t, (tickTrain es)[j]? = some t → answersWhen (decide (j = L)) t = true) →
    ∃ u, runFor es.length s = .next u ∧
      u.run = .running ∧ u.seq = .wait ∧ reached u.cfg.tw u.now u.deadline = true ∧
      u.now = (s.now + (tickTrain es).length) % 2 ^ s.cfg.tw ∧
      u.deadline = (s.deadline + s.cfg.period) % 2 ^ s.cfg.tw ∧
      lateness u + s.cfg.period = lateness s + (tickTrain es).length ∧ u.schedule = rest ∧
      ∀ n v, n ≤ es.length → runFor n s = .next v →
        (v.busReq = true ↔ (tickTrain (es.take n)).length = 1)

/-- 42_scheduler R185, R177: no drift. If every tick's latency is below the period, then over any number of ticks, each
with its own latency and answer, in any interleaving with edges of `clk_c` and with any STARTs presented, every fire edge
is exactly at its deadline, `P` edges of `clk_t` after the one before, and those are the only requests. -/
def Obligations.NoDrift : Prop :=
  ∀ (Ls : List Nat) (s : State) (es rest : List Event),
    Inv s → s.run = .running → s.seq = .wait → s.now = s.deadline →
    s.schedule = es ++ rest → (∀ e ∈ es, noReset e = true) →
    (tickTrain es).length = Ls.length * s.cfg.period →
    (∀ L ∈ Ls, 1 ≤ L ∧ L < s.cfg.period) →
    (∀ k L j t, Ls[k]? = some L → j < s.cfg.period → (tickTrain es)[k * s.cfg.period + j]? = some t →
      answersWhen (decide (j = L)) t = true) →
    ∃ u, runFor es.length s = .next u ∧
      u.run = .running ∧ u.seq = .wait ∧ u.now = u.deadline ∧
      u.deadline = (s.deadline + Ls.length * s.cfg.period) % 2 ^ s.cfg.tw ∧ u.schedule = rest ∧
      ∀ n v, n ≤ es.length → runFor n s = .next v →
        (v.busReq = true ↔ (tickTrain (es.take n)).length % s.cfg.period = 1)

/-- 60_exceptions R249: with a tick in flight and a transport that does not answer, the tick never ends: `seq` stays
EXCH, nothing is written, the deadline stands still, a pending STOP is not answered and `ctl_ready` stays 0, while both
domains go on stepping, in any interleaving, and `now` counts the edges of `clk_t`. -/
def Obligations.UnansweredTickStaysInFlight : Prop :=
  ∀ (es rest : List Event) (s : State),
    Inv s → s.seq = .exch → s.schedule = es ++ rest → (∀ e ∈ es, noReset e = true) →
    (∀ t ∈ tickTrain es, t.busDone = false) →
    ∃ t, runFor es.length s = .next t ∧ t.seq = .exch ∧ SameRing s t ∧
      t.now = (s.now + (tickTrain es).length) % 2 ^ s.cfg.tw ∧
      (s.stopPend = true → t.stopPend = true ∧ ctlReady t = false ∧
        (s.ctlRespValid = false → t.ctlRespValid = false))

/-- 41_ring_buffer R145, R147, 20_memory R70: the crossing never shows a value `pos` did not hold, never goes back, and
never runs ahead of the writes: every step that is no reset keeps the relation to the unwrapped count of writes, with
every count growing or staying, and `pos_c` is the position at count `b'`. -/
def Obligations.CrossingKeepsTheOrder : Prop :=
  ∀ (s t : State) (h w a b : Nat),
    s.cfg.wf = true → Crossing s h w a b → nextEvent s ≠ .reset → step s = .next t →
    ∃ h' w' a' b', Crossing t h' w' a' b' ∧ h ≤ h' ∧ w ≤ w' ∧ w' ≤ w + 1 ∧ a ≤ a' ∧ b ≤ b' ∧ b' ≤ a ∧
      posC t = b' % s.cfg.slots

/-- 41_ring_buffer R146: the staleness bound. With no WRITE in between, `pos_c` equals `pos` after three edges of
`clk_c`, whatever the synchroniser draws and whatever edges of `clk_t` fall between or pair with them: commands, fires,
failed completions, stray answers. -/
def Obligations.CursorSettlesInThreeEdges : Prop :=
  ∀ (es rest : List Event) (s : State),
    Inv s → s.schedule = es ++ rest → NoWriteOnRun s es → 3 ≤ es.countP hasConsumerEdge →
    ∃ t, runFor es.length s = .next t ∧ t.pos = s.pos ∧ posC t = s.pos

/-- 43_external_interfaces R214, R215: if `w` writes lie between two polls the consumer computes `w mod N`; it copies
the slots from `lastPos` on; and the slot at `lastPos + i` is the one that write number `N - avail + i` after `p`
(counting from 0) replaces. -/
def Obligations.ConsumerPollArithmetic : Prop :=
  ∀ (c : Config) (lastPos w : Nat), lastPos < c.slots →
    Consumer.avail c ((lastPos + w) % c.slots) lastPos = w % c.slots ∧
    (∀ p, p < c.slots → ∀ i, i < Consumer.avail c p lastPos →
      (Consumer.copySlots c p lastPos)[i]? = some ((lastPos + i) % c.slots) ∧
      (lastPos + i) % c.slots = (p + (c.slots - Consumer.avail c p lastPos + i)) % c.slots)

/-- 43_external_interfaces R214: a poll, edge by edge of the block with its consumer (notes/assumptions/21.md). It begins
where the consumer samples `pos_c`, and is over at once with `avail = 0`; each edge of `clk_c` the consumer uses, that
one included, is one RD, of slot `(lastPos + i) mod N`, and appends `rd_data`, which is any byte where an unordered WRITE hits the slot; after
`avail` reads `lastPos` is `p`. An edge the consumer does not use, and an edge of `clk_t`, leave it alone. -/
def Obligations.PollCopiesOneSlotPerEdge : Prop :=
  ∀ y : System, Inv y.block →
    (∀ e c, consumerInputs e = some c → c.readPos = true → y.consumer.poll = none →
      ∃ z, y.edge e false = .next z ∧ z.consumer =
        if Consumer.avail y.block.cfg (posC y.block) y.consumer.lastPos = 0 then
          { y.consumer with lastPos := posC y.block }
        else { y.consumer with poll := some { p := posC y.block, out := [] } }) ∧
    (∀ e c q, consumerInputs e = some c → (y.consumer.sampled y.block e).poll = some q →
      q.out.length < Consumer.avail y.block.cfg q.p y.consumer.lastPos →
      let slot := (y.consumer.lastPos + q.out.length) % y.block.cfg.slots
      ∃ z v, y.edge e true = .next z ∧
        (v = if (tickInputs e).bind (fun t => writtenSlot (sampleT t y.block)) = some slot then c.junk
          else readSlot y.block slot) ∧
        z.consumer =
          if q.out.length + 1 = Consumer.avail y.block.cfg q.p y.consumer.lastPos then
            { lastPos := q.p, poll := none, copied := y.consumer.copied ++ (q.out ++ [v]) }
          else { y.consumer with poll := some { q with out := q.out ++ [v] } }) ∧
    (∀ e q, noReset e = true → y.consumer.poll = some q →
      q.out.length < Consumer.avail y.block.cfg q.p y.consumer.lastPos →
      ∃ z, y.edge e false = .next z ∧ z.consumer = y.consumer) ∧
    (∀ t copy, ∃ z, y.edge (.clkT t) copy = .next z ∧ z.consumer = y.consumer) ∧
    (∀ copy, ∃ z, y.edge .reset copy = .next z ∧ z.consumer = { lastPos := 0, poll := none, copied := [] })

/-- 43_external_interfaces R215, 93_implementation_defined U3: a consumer that takes each poll's `p` at most `N - 1`
writes after the previous one's, and copies slot `lastPos + i` before `N - avail + i + 1` writes have been made after
`p`, is free of loss and of collisions: what its finished polls copied is exactly the samples written, in order, from
the first on, none missing and none altered, whatever writes and unordered edges fall into its polls. -/
def Obligations.SafeConsumerLosesNothing : Prop :=
  ∀ (y z : System) (e : Event) (copy : Bool) (written : List Sample) (h a b taken : Nat),
    Inv y.block → LossFree y written h a b taken → noReset e = true →
    SafeMove y e copy (written ++ writtenBy y.block e).length taken b →
    y.edge e copy = .next z →
    ∃ h' a' b' taken', LossFree z (written ++ writtenBy y.block e) h' a' b' taken' ∧ b ≤ b' ∧ taken ≤ taken' ∧
      ((y.consumer.copies y.block e copy).isSome = true →
        ∀ t, tickInputs e = some t → writtenSlot (sampleT t y.block) ≠ y.consumer.copies y.block e copy)
end

