-- ==== Sys2Proof/Laws/Memory.lean ====
section
/-! SUPPORT. The ring memory: a read after a write, and every memory operation keeps the canonical form. -/

namespace Sys2Proof.Machine

theorem Memory.wfFrom_weaken {d : Byte} {bound lo lo' : Nat} {m : Memory} (hle : lo' ≤ lo)
    (h : Memory.wfFrom d bound lo m = true) : Memory.wfFrom d bound lo' m = true := by
  cases m with
  | nil => rfl
  | cons c m =>
    obtain ⟨b, w⟩ := c
    simp only [Memory.wfFrom, Bool.and_eq_true, decide_eq_true_eq] at h ⊢
    exact ⟨⟨⟨by omega, h.1.1.2⟩, h.1.2⟩, h.2⟩

/-- Below its first slot a canonical memory lists nothing. -/
theorem Memory.read_below {d : Byte} {bound lo a : Nat} {m : Memory}
    (h : Memory.wfFrom d bound lo m = true) (ha : a < lo) : Memory.read d m a = d := by
  induction m generalizing lo with
  | nil => rfl
  | cons c m ih =>
    obtain ⟨b, w⟩ := c
    simp only [Memory.wfFrom, Bool.and_eq_true, decide_eq_true_eq] at h
    rw [Memory.read, if_neg (by omega)]
    exact ih h.2 (by omega)

theorem Memory.write_wfFrom {d : Byte} {bound lo a : Nat} {m : Memory} {v : Byte} (hlo : lo ≤ a) (hb : a < bound)
    (h : Memory.wfFrom d bound lo m = true) : Memory.wfFrom d bound lo (Memory.write d m a v) = true := by
  induction m generalizing lo with
  | nil =>
    by_cases hv : v = d
    · simp [Memory.write, hv, Memory.wfFrom]
    · simp [Memory.write, hv, Memory.wfFrom, hlo, hb]
  | cons c m ih =>
    obtain ⟨b, w⟩ := c
    have h0 := h
    simp only [Memory.wfFrom, Bool.and_eq_true, decide_eq_true_eq] at h
    obtain ⟨⟨⟨h1, h2⟩, h3⟩, h4⟩ := h
    unfold Memory.write
    split
    · split
      · exact h0
      · simp only [Memory.wfFrom, Bool.and_eq_true, decide_eq_true_eq]
        exact ⟨⟨⟨hlo, hb⟩, ‹_›⟩, ⟨⟨by omega, h2⟩, h3⟩, h4⟩
    · split
      · split
        · exact Memory.wfFrom_weaken (by omega) h4
        · subst_vars
          simp only [Memory.wfFrom, Bool.and_eq_true, decide_eq_true_eq]
          exact ⟨⟨⟨hlo, hb⟩, ‹_›⟩, h4⟩
      · simp only [Memory.wfFrom, Bool.and_eq_true, decide_eq_true_eq]
        exact ⟨⟨⟨h1, h2⟩, h3⟩, ih (by omega) h4⟩

/-- The one memory operation that changes the memory keeps the canonical form. -/
theorem Memory.write_wf {d : Byte} {bound a : Nat} {m : Memory} {v : Byte} (hb : a < bound)
    (h : Memory.wf d bound m = true) : Memory.wf d bound (Memory.write d m a v) = true :=
  Memory.write_wfFrom (Nat.zero_le a) hb h

theorem Memory.read_writeFrom {d : Byte} {bound lo a b : Nat} {m : Memory} {v : Byte}
    (h : Memory.wfFrom d bound lo m = true) :
    Memory.read d (Memory.write d m a v) b = if b = a then v else Memory.read d m b := by
  induction m generalizing lo with
  | nil =>
    by_cases hv : v = d
    · simp [Memory.write, hv, Memory.read]
    · simp [Memory.write, hv, Memory.read]
  | cons c m ih =>
    obtain ⟨x, w⟩ := c
    have h0 := h
    simp only [Memory.wfFrom, Bool.and_eq_true, decide_eq_true_eq] at h
    unfold Memory.write
    split
    · split
      · split
        · subst_vars
          rw [Memory.read, if_neg (by omega)]
          exact Memory.read_below h.2 (by omega)
        · rfl
      · rfl
    · split
      · subst_vars
        split
        · split
          · subst_vars
            exact Memory.read_below h.2 (by omega)
          · simp [Memory.read, *]
        · simp only [Memory.read]
          split <;> rfl
      · simp only [Memory.read]
        split
        · rw [if_neg (by omega)]
        · exact ih h.2

/-- A read after a write to the same slot gives the value written, and a write leaves every other slot alone. -/
theorem Memory.read_write {d : Byte} {bound a b : Nat} {m : Memory} {v : Byte} (h : Memory.wf d bound m = true) :
    Memory.read d (Memory.write d m a v) b = if b = a then v else Memory.read d m b :=
  Memory.read_writeFrom h

/-- The memory after reset is canonical, and every slot reads `MEM_INIT` (10_state R30). -/
theorem Memory.reset_wf (d : Byte) (bound : Nat) : Memory.wf d bound [] = true := rfl

@[simp] theorem Memory.read_empty (d : Byte) (a : Nat) : Memory.read d [] a = d := rfl

end Sys2Proof.Machine
end

