-- ==== Sys2Proof/Laws/State.lean ====
section
/-! SUPPORT. One lemma per field of State per update of Machine/Ops.lean, so that no later proof unfolds a record update. -/

namespace Sys2Proof.Machine

@[simp] theorem setResult_cfg (r : Result) (s : State) : (setResult r s).cfg = s.cfg := rfl
@[simp] theorem setResult_now (r : Result) (s : State) : (setResult r s).now = s.now := rfl
@[simp] theorem setResult_run (r : Result) (s : State) : (setResult r s).run = s.run := rfl
@[simp] theorem setResult_deadline (r : Result) (s : State) : (setResult r s).deadline = s.deadline := rfl
@[simp] theorem setResult_seq (r : Result) (s : State) : (setResult r s).seq = s.seq := rfl
@[simp] theorem setResult_stopPend (r : Result) (s : State) : (setResult r s).stopPend = s.stopPend := rfl
@[simp] theorem setResult_busReq (r : Result) (s : State) : (setResult r s).busReq = s.busReq := rfl
@[simp] theorem setResult_ctlRespValid (r : Result) (s : State) : (setResult r s).ctlRespValid = s.ctlRespValid := rfl
@[simp] theorem setResult_ctlErr (r : Result) (s : State) : (setResult r s).ctlErr = s.ctlErr := rfl
@[simp] theorem setResult_pos (r : Result) (s : State) : (setResult r s).pos = s.pos := rfl
@[simp] theorem setResult_posGray (r : Result) (s : State) : (setResult r s).posGray = s.posGray := rfl
@[simp] theorem setResult_mem (r : Result) (s : State) : (setResult r s).mem = s.mem := rfl
@[simp] theorem setResult_sync1 (r : Result) (s : State) : (setResult r s).sync1 = s.sync1 := rfl
@[simp] theorem setResult_sync2 (r : Result) (s : State) : (setResult r s).sync2 = s.sync2 := rfl
@[simp] theorem setResult_rdData (r : Result) (s : State) : (setResult r s).rdData = s.rdData := rfl
@[simp] theorem setResult_grayHeld (r : Result) (s : State) : (setResult r s).grayHeld = s.grayHeld := rfl
@[simp] theorem setResult_inp (r : Result) (s : State) : (setResult r s).inp = s.inp := rfl
@[simp] theorem setResult_result (r : Result) (s : State) : (setResult r s).result = r := rfl
@[simp] theorem setResult_schedule (r : Result) (s : State) : (setResult r s).schedule = s.schedule := rfl
@[simp] theorem setResult_edges (r : Result) (s : State) : (setResult r s).edges = s.edges := rfl

@[simp] theorem respond_cfg (code : CodeBit) (s : State) : (respond code s).cfg = s.cfg := rfl
@[simp] theorem respond_now (code : CodeBit) (s : State) : (respond code s).now = s.now := rfl
@[simp] theorem respond_run (code : CodeBit) (s : State) : (respond code s).run = s.run := rfl
@[simp] theorem respond_deadline (code : CodeBit) (s : State) : (respond code s).deadline = s.deadline := rfl
@[simp] theorem respond_seq (code : CodeBit) (s : State) : (respond code s).seq = s.seq := rfl
@[simp] theorem respond_stopPend (code : CodeBit) (s : State) : (respond code s).stopPend = s.stopPend := rfl
@[simp] theorem respond_busReq (code : CodeBit) (s : State) : (respond code s).busReq = s.busReq := rfl
@[simp] theorem respond_ctlRespValid (code : CodeBit) (s : State) : (respond code s).ctlRespValid = true := rfl
@[simp] theorem respond_ctlErr (code : CodeBit) (s : State) : (respond code s).ctlErr = code := rfl
@[simp] theorem respond_pos (code : CodeBit) (s : State) : (respond code s).pos = s.pos := rfl
@[simp] theorem respond_posGray (code : CodeBit) (s : State) : (respond code s).posGray = s.posGray := rfl
@[simp] theorem respond_mem (code : CodeBit) (s : State) : (respond code s).mem = s.mem := rfl
@[simp] theorem respond_sync1 (code : CodeBit) (s : State) : (respond code s).sync1 = s.sync1 := rfl
@[simp] theorem respond_sync2 (code : CodeBit) (s : State) : (respond code s).sync2 = s.sync2 := rfl
@[simp] theorem respond_rdData (code : CodeBit) (s : State) : (respond code s).rdData = s.rdData := rfl
@[simp] theorem respond_grayHeld (code : CodeBit) (s : State) : (respond code s).grayHeld = s.grayHeld := rfl
@[simp] theorem respond_inp (code : CodeBit) (s : State) : (respond code s).inp = s.inp := rfl
@[simp] theorem respond_result (code : CodeBit) (s : State) : (respond code s).result = s.result := rfl
@[simp] theorem respond_schedule (code : CodeBit) (s : State) : (respond code s).schedule = s.schedule := rfl
@[simp] theorem respond_edges (code : CodeBit) (s : State) : (respond code s).edges = s.edges := rfl

@[simp] theorem arm_cfg (s : State) : (arm s).cfg = s.cfg := rfl
@[simp] theorem arm_now (s : State) : (arm s).now = s.now := rfl
@[simp] theorem arm_run (s : State) : (arm s).run = .running := rfl
@[simp] theorem arm_deadline (s : State) : (arm s).deadline = timeAfter s.cfg s.now s.cfg.period := rfl
@[simp] theorem arm_seq (s : State) : (arm s).seq = s.seq := rfl
@[simp] theorem arm_stopPend (s : State) : (arm s).stopPend = s.stopPend := rfl
@[simp] theorem arm_busReq (s : State) : (arm s).busReq = s.busReq := rfl
@[simp] theorem arm_ctlRespValid (s : State) : (arm s).ctlRespValid = s.ctlRespValid := rfl
@[simp] theorem arm_ctlErr (s : State) : (arm s).ctlErr = s.ctlErr := rfl
@[simp] theorem arm_pos (s : State) : (arm s).pos = s.pos := rfl
@[simp] theorem arm_posGray (s : State) : (arm s).posGray = s.posGray := rfl
@[simp] theorem arm_mem (s : State) : (arm s).mem = s.mem := rfl
@[simp] theorem arm_sync1 (s : State) : (arm s).sync1 = s.sync1 := rfl
@[simp] theorem arm_sync2 (s : State) : (arm s).sync2 = s.sync2 := rfl
@[simp] theorem arm_rdData (s : State) : (arm s).rdData = s.rdData := rfl
@[simp] theorem arm_grayHeld (s : State) : (arm s).grayHeld = s.grayHeld := rfl
@[simp] theorem arm_inp (s : State) : (arm s).inp = s.inp := rfl
@[simp] theorem arm_result (s : State) : (arm s).result = s.result := rfl
@[simp] theorem arm_schedule (s : State) : (arm s).schedule = s.schedule := rfl
@[simp] theorem arm_edges (s : State) : (arm s).edges = s.edges := rfl

@[simp] theorem disarm_cfg (s : State) : (disarm s).cfg = s.cfg := rfl
@[simp] theorem disarm_now (s : State) : (disarm s).now = s.now := rfl
@[simp] theorem disarm_run (s : State) : (disarm s).run = .idle := rfl
@[simp] theorem disarm_deadline (s : State) : (disarm s).deadline = s.deadline := rfl
@[simp] theorem disarm_seq (s : State) : (disarm s).seq = s.seq := rfl
@[simp] theorem disarm_stopPend (s : State) : (disarm s).stopPend = s.stopPend := rfl
@[simp] theorem disarm_busReq (s : State) : (disarm s).busReq = s.busReq := rfl
@[simp] theorem disarm_ctlRespValid (s : State) : (disarm s).ctlRespValid = s.ctlRespValid := rfl
@[simp] theorem disarm_ctlErr (s : State) : (disarm s).ctlErr = s.ctlErr := rfl
@[simp] theorem disarm_pos (s : State) : (disarm s).pos = s.pos := rfl
@[simp] theorem disarm_posGray (s : State) : (disarm s).posGray = s.posGray := rfl
@[simp] theorem disarm_mem (s : State) : (disarm s).mem = s.mem := rfl
@[simp] theorem disarm_sync1 (s : State) : (disarm s).sync1 = s.sync1 := rfl
@[simp] theorem disarm_sync2 (s : State) : (disarm s).sync2 = s.sync2 := rfl
@[simp] theorem disarm_rdData (s : State) : (disarm s).rdData = s.rdData := rfl
@[simp] theorem disarm_grayHeld (s : State) : (disarm s).grayHeld = s.grayHeld := rfl
@[simp] theorem disarm_inp (s : State) : (disarm s).inp = s.inp := rfl
@[simp] theorem disarm_result (s : State) : (disarm s).result = s.result := rfl
@[simp] theorem disarm_schedule (s : State) : (disarm s).schedule = s.schedule := rfl
@[simp] theorem disarm_edges (s : State) : (disarm s).edges = s.edges := rfl

@[simp] theorem deferStop_cfg (s : State) : (deferStop s).cfg = s.cfg := rfl
@[simp] theorem deferStop_now (s : State) : (deferStop s).now = s.now := rfl
@[simp] theorem deferStop_run (s : State) : (deferStop s).run = s.run := rfl
@[simp] theorem deferStop_deadline (s : State) : (deferStop s).deadline = s.deadline := rfl
@[simp] theorem deferStop_seq (s : State) : (deferStop s).seq = s.seq := rfl
@[simp] theorem deferStop_stopPend (s : State) : (deferStop s).stopPend = true := rfl
@[simp] theorem deferStop_busReq (s : State) : (deferStop s).busReq = s.busReq := rfl
@[simp] theorem deferStop_ctlRespValid (s : State) : (deferStop s).ctlRespValid = s.ctlRespValid := rfl
@[simp] theorem deferStop_ctlErr (s : State) : (deferStop s).ctlErr = s.ctlErr := rfl
@[simp] theorem deferStop_pos (s : State) : (deferStop s).pos = s.pos := rfl
@[simp] theorem deferStop_posGray (s : State) : (deferStop s).posGray = s.posGray := rfl
@[simp] theorem deferStop_mem (s : State) : (deferStop s).mem = s.mem := rfl
@[simp] theorem deferStop_sync1 (s : State) : (deferStop s).sync1 = s.sync1 := rfl
@[simp] theorem deferStop_sync2 (s : State) : (deferStop s).sync2 = s.sync2 := rfl
@[simp] theorem deferStop_rdData (s : State) : (deferStop s).rdData = s.rdData := rfl
@[simp] theorem deferStop_grayHeld (s : State) : (deferStop s).grayHeld = s.grayHeld := rfl
@[simp] theorem deferStop_inp (s : State) : (deferStop s).inp = s.inp := rfl
@[simp] theorem deferStop_result (s : State) : (deferStop s).result = s.result := rfl
@[simp] theorem deferStop_schedule (s : State) : (deferStop s).schedule = s.schedule := rfl
@[simp] theorem deferStop_edges (s : State) : (deferStop s).edges = s.edges := rfl

@[simp] theorem ringWrite_cfg (v : Sample) (s : State) : (ringWrite v s).cfg = s.cfg := rfl
@[simp] theorem ringWrite_now (v : Sample) (s : State) : (ringWrite v s).now = s.now := rfl
@[simp] theorem ringWrite_run (v : Sample) (s : State) : (ringWrite v s).run = s.run := rfl
@[simp] theorem ringWrite_deadline (v : Sample) (s : State) : (ringWrite v s).deadline = s.deadline := rfl
@[simp] theorem ringWrite_seq (v : Sample) (s : State) : (ringWrite v s).seq = s.seq := rfl
@[simp] theorem ringWrite_stopPend (v : Sample) (s : State) : (ringWrite v s).stopPend = s.stopPend := rfl
@[simp] theorem ringWrite_busReq (v : Sample) (s : State) : (ringWrite v s).busReq = s.busReq := rfl
@[simp] theorem ringWrite_ctlRespValid (v : Sample) (s : State) : (ringWrite v s).ctlRespValid = s.ctlRespValid := rfl
@[simp] theorem ringWrite_ctlErr (v : Sample) (s : State) : (ringWrite v s).ctlErr = s.ctlErr := rfl
@[simp] theorem ringWrite_pos (v : Sample) (s : State) : (ringWrite v s).pos = nextSlot s.cfg s.pos := rfl
@[simp] theorem ringWrite_posGray (v : Sample) (s : State) : (ringWrite v s).posGray = bin2gray (nextSlot s.cfg s.pos) := rfl
@[simp] theorem ringWrite_mem (v : Sample) (s : State) : (ringWrite v s).mem = Memory.write s.cfg.memInit s.mem s.pos v := rfl
@[simp] theorem ringWrite_sync1 (v : Sample) (s : State) : (ringWrite v s).sync1 = s.sync1 := rfl
@[simp] theorem ringWrite_sync2 (v : Sample) (s : State) : (ringWrite v s).sync2 = s.sync2 := rfl
@[simp] theorem ringWrite_rdData (v : Sample) (s : State) : (ringWrite v s).rdData = s.rdData := rfl
@[simp] theorem ringWrite_grayHeld (v : Sample) (s : State) : (ringWrite v s).grayHeld = s.grayHeld ++ [bin2gray (nextSlot s.cfg s.pos)] := rfl
@[simp] theorem ringWrite_inp (v : Sample) (s : State) : (ringWrite v s).inp = s.inp := rfl
@[simp] theorem ringWrite_result (v : Sample) (s : State) : (ringWrite v s).result = s.result := rfl
@[simp] theorem ringWrite_schedule (v : Sample) (s : State) : (ringWrite v s).schedule = s.schedule := rfl
@[simp] theorem ringWrite_edges (v : Sample) (s : State) : (ringWrite v s).edges = s.edges := rfl

@[simp] theorem beginExchange_cfg (s : State) : (beginExchange s).cfg = s.cfg := rfl
@[simp] theorem beginExchange_now (s : State) : (beginExchange s).now = s.now := rfl
@[simp] theorem beginExchange_run (s : State) : (beginExchange s).run = s.run := rfl
@[simp] theorem beginExchange_deadline (s : State) : (beginExchange s).deadline = s.deadline := rfl
@[simp] theorem beginExchange_seq (s : State) : (beginExchange s).seq = s.seq := rfl
@[simp] theorem beginExchange_stopPend (s : State) : (beginExchange s).stopPend = s.stopPend := rfl
@[simp] theorem beginExchange_busReq (s : State) : (beginExchange s).busReq = true := rfl
@[simp] theorem beginExchange_ctlRespValid (s : State) : (beginExchange s).ctlRespValid = s.ctlRespValid := rfl
@[simp] theorem beginExchange_ctlErr (s : State) : (beginExchange s).ctlErr = s.ctlErr := rfl
@[simp] theorem beginExchange_pos (s : State) : (beginExchange s).pos = s.pos := rfl
@[simp] theorem beginExchange_posGray (s : State) : (beginExchange s).posGray = s.posGray := rfl
@[simp] theorem beginExchange_mem (s : State) : (beginExchange s).mem = s.mem := rfl
@[simp] theorem beginExchange_sync1 (s : State) : (beginExchange s).sync1 = s.sync1 := rfl
@[simp] theorem beginExchange_sync2 (s : State) : (beginExchange s).sync2 = s.sync2 := rfl
@[simp] theorem beginExchange_rdData (s : State) : (beginExchange s).rdData = s.rdData := rfl
@[simp] theorem beginExchange_grayHeld (s : State) : (beginExchange s).grayHeld = s.grayHeld := rfl
@[simp] theorem beginExchange_inp (s : State) : (beginExchange s).inp = s.inp := rfl
@[simp] theorem beginExchange_result (s : State) : (beginExchange s).result = .frame commandFrame := rfl
@[simp] theorem beginExchange_schedule (s : State) : (beginExchange s).schedule = s.schedule := rfl
@[simp] theorem beginExchange_edges (s : State) : (beginExchange s).edges = s.edges := rfl

@[simp] theorem enterTick_cfg (s : State) : (enterTick s).cfg = s.cfg := rfl
@[simp] theorem enterTick_now (s : State) : (enterTick s).now = s.now := rfl
@[simp] theorem enterTick_run (s : State) : (enterTick s).run = s.run := rfl
@[simp] theorem enterTick_deadline (s : State) : (enterTick s).deadline = s.deadline := rfl
@[simp] theorem enterTick_seq (s : State) : (enterTick s).seq = .exch := rfl
@[simp] theorem enterTick_stopPend (s : State) : (enterTick s).stopPend = s.stopPend := rfl
@[simp] theorem enterTick_busReq (s : State) : (enterTick s).busReq = true := rfl
@[simp] theorem enterTick_ctlRespValid (s : State) : (enterTick s).ctlRespValid = s.ctlRespValid := rfl
@[simp] theorem enterTick_ctlErr (s : State) : (enterTick s).ctlErr = s.ctlErr := rfl
@[simp] theorem enterTick_pos (s : State) : (enterTick s).pos = s.pos := rfl
@[simp] theorem enterTick_posGray (s : State) : (enterTick s).posGray = s.posGray := rfl
@[simp] theorem enterTick_mem (s : State) : (enterTick s).mem = s.mem := rfl
@[simp] theorem enterTick_sync1 (s : State) : (enterTick s).sync1 = s.sync1 := rfl
@[simp] theorem enterTick_sync2 (s : State) : (enterTick s).sync2 = s.sync2 := rfl
@[simp] theorem enterTick_rdData (s : State) : (enterTick s).rdData = s.rdData := rfl
@[simp] theorem enterTick_grayHeld (s : State) : (enterTick s).grayHeld = s.grayHeld := rfl
@[simp] theorem enterTick_inp (s : State) : (enterTick s).inp = s.inp := rfl
@[simp] theorem enterTick_result (s : State) : (enterTick s).result = .frame commandFrame := rfl
@[simp] theorem enterTick_schedule (s : State) : (enterTick s).schedule = s.schedule := rfl
@[simp] theorem enterTick_edges (s : State) : (enterTick s).edges = s.edges := rfl

@[simp] theorem rearm_cfg (s : State) : (rearm s).cfg = s.cfg := rfl
@[simp] theorem rearm_now (s : State) : (rearm s).now = s.now := rfl
@[simp] theorem rearm_run (s : State) : (rearm s).run = s.run := rfl
@[simp] theorem rearm_deadline (s : State) : (rearm s).deadline = timeAfter s.cfg s.deadline s.cfg.period := rfl
@[simp] theorem rearm_seq (s : State) : (rearm s).seq = .wait := rfl
@[simp] theorem rearm_stopPend (s : State) : (rearm s).stopPend = s.stopPend := rfl
@[simp] theorem rearm_busReq (s : State) : (rearm s).busReq = s.busReq := rfl
@[simp] theorem rearm_ctlRespValid (s : State) : (rearm s).ctlRespValid = s.ctlRespValid := rfl
@[simp] theorem rearm_ctlErr (s : State) : (rearm s).ctlErr = s.ctlErr := rfl
@[simp] theorem rearm_pos (s : State) : (rearm s).pos = s.pos := rfl
@[simp] theorem rearm_posGray (s : State) : (rearm s).posGray = s.posGray := rfl
@[simp] theorem rearm_mem (s : State) : (rearm s).mem = s.mem := rfl
@[simp] theorem rearm_sync1 (s : State) : (rearm s).sync1 = s.sync1 := rfl
@[simp] theorem rearm_sync2 (s : State) : (rearm s).sync2 = s.sync2 := rfl
@[simp] theorem rearm_rdData (s : State) : (rearm s).rdData = s.rdData := rfl
@[simp] theorem rearm_grayHeld (s : State) : (rearm s).grayHeld = s.grayHeld := rfl
@[simp] theorem rearm_inp (s : State) : (rearm s).inp = s.inp := rfl
@[simp] theorem rearm_result (s : State) : (rearm s).result = s.result := rfl
@[simp] theorem rearm_schedule (s : State) : (rearm s).schedule = s.schedule := rfl
@[simp] theorem rearm_edges (s : State) : (rearm s).edges = s.edges := rfl

@[simp] theorem releaseStop_cfg (s : State) : (releaseStop s).cfg = s.cfg := rfl
@[simp] theorem releaseStop_now (s : State) : (releaseStop s).now = s.now := rfl
@[simp] theorem releaseStop_run (s : State) : (releaseStop s).run = s.run := rfl
@[simp] theorem releaseStop_deadline (s : State) : (releaseStop s).deadline = s.deadline := rfl
@[simp] theorem releaseStop_seq (s : State) : (releaseStop s).seq = s.seq := rfl
@[simp] theorem releaseStop_stopPend (s : State) : (releaseStop s).stopPend = false := rfl
@[simp] theorem releaseStop_busReq (s : State) : (releaseStop s).busReq = s.busReq := rfl
@[simp] theorem releaseStop_ctlRespValid (s : State) : (releaseStop s).ctlRespValid = true := rfl
@[simp] theorem releaseStop_ctlErr (s : State) : (releaseStop s).ctlErr = 0#1 := rfl
@[simp] theorem releaseStop_pos (s : State) : (releaseStop s).pos = s.pos := rfl
@[simp] theorem releaseStop_posGray (s : State) : (releaseStop s).posGray = s.posGray := rfl
@[simp] theorem releaseStop_mem (s : State) : (releaseStop s).mem = s.mem := rfl
@[simp] theorem releaseStop_sync1 (s : State) : (releaseStop s).sync1 = s.sync1 := rfl
@[simp] theorem releaseStop_sync2 (s : State) : (releaseStop s).sync2 = s.sync2 := rfl
@[simp] theorem releaseStop_rdData (s : State) : (releaseStop s).rdData = s.rdData := rfl
@[simp] theorem releaseStop_grayHeld (s : State) : (releaseStop s).grayHeld = s.grayHeld := rfl
@[simp] theorem releaseStop_inp (s : State) : (releaseStop s).inp = s.inp := rfl
@[simp] theorem releaseStop_result (s : State) : (releaseStop s).result = s.result := rfl
@[simp] theorem releaseStop_schedule (s : State) : (releaseStop s).schedule = s.schedule := rfl
@[simp] theorem releaseStop_edges (s : State) : (releaseStop s).edges = s.edges := rfl

@[simp] theorem syncCapture_cfg (code : Nat) (s : State) : (syncCapture code s).cfg = s.cfg := rfl
@[simp] theorem syncCapture_now (code : Nat) (s : State) : (syncCapture code s).now = s.now := rfl
@[simp] theorem syncCapture_run (code : Nat) (s : State) : (syncCapture code s).run = s.run := rfl
@[simp] theorem syncCapture_deadline (code : Nat) (s : State) : (syncCapture code s).deadline = s.deadline := rfl
@[simp] theorem syncCapture_seq (code : Nat) (s : State) : (syncCapture code s).seq = s.seq := rfl
@[simp] theorem syncCapture_stopPend (code : Nat) (s : State) : (syncCapture code s).stopPend = s.stopPend := rfl
@[simp] theorem syncCapture_busReq (code : Nat) (s : State) : (syncCapture code s).busReq = s.busReq := rfl
@[simp] theorem syncCapture_ctlRespValid (code : Nat) (s : State) : (syncCapture code s).ctlRespValid = s.ctlRespValid := rfl
@[simp] theorem syncCapture_ctlErr (code : Nat) (s : State) : (syncCapture code s).ctlErr = s.ctlErr := rfl
@[simp] theorem syncCapture_pos (code : Nat) (s : State) : (syncCapture code s).pos = s.pos := rfl
@[simp] theorem syncCapture_posGray (code : Nat) (s : State) : (syncCapture code s).posGray = s.posGray := rfl
@[simp] theorem syncCapture_mem (code : Nat) (s : State) : (syncCapture code s).mem = s.mem := rfl
@[simp] theorem syncCapture_sync1 (code : Nat) (s : State) : (syncCapture code s).sync1 = code := rfl
@[simp] theorem syncCapture_sync2 (code : Nat) (s : State) : (syncCapture code s).sync2 = s.sync1 := rfl
@[simp] theorem syncCapture_rdData (code : Nat) (s : State) : (syncCapture code s).rdData = s.rdData := rfl
@[simp] theorem syncCapture_grayHeld (code : Nat) (s : State) : (syncCapture code s).grayHeld = [s.posGray] := rfl
@[simp] theorem syncCapture_inp (code : Nat) (s : State) : (syncCapture code s).inp = s.inp := rfl
@[simp] theorem syncCapture_result (code : Nat) (s : State) : (syncCapture code s).result = s.result := rfl
@[simp] theorem syncCapture_schedule (code : Nat) (s : State) : (syncCapture code s).schedule = s.schedule := rfl
@[simp] theorem syncCapture_edges (code : Nat) (s : State) : (syncCapture code s).edges = s.edges := rfl

@[simp] theorem readPort_cfg (addr : Nat) (s : State) : (readPort addr s).cfg = s.cfg := rfl
@[simp] theorem readPort_now (addr : Nat) (s : State) : (readPort addr s).now = s.now := rfl
@[simp] theorem readPort_run (addr : Nat) (s : State) : (readPort addr s).run = s.run := rfl
@[simp] theorem readPort_deadline (addr : Nat) (s : State) : (readPort addr s).deadline = s.deadline := rfl
@[simp] theorem readPort_seq (addr : Nat) (s : State) : (readPort addr s).seq = s.seq := rfl
@[simp] theorem readPort_stopPend (addr : Nat) (s : State) : (readPort addr s).stopPend = s.stopPend := rfl
@[simp] theorem readPort_busReq (addr : Nat) (s : State) : (readPort addr s).busReq = s.busReq := rfl
@[simp] theorem readPort_ctlRespValid (addr : Nat) (s : State) : (readPort addr s).ctlRespValid = s.ctlRespValid := rfl
@[simp] theorem readPort_ctlErr (addr : Nat) (s : State) : (readPort addr s).ctlErr = s.ctlErr := rfl
@[simp] theorem readPort_pos (addr : Nat) (s : State) : (readPort addr s).pos = s.pos := rfl
@[simp] theorem readPort_posGray (addr : Nat) (s : State) : (readPort addr s).posGray = s.posGray := rfl
@[simp] theorem readPort_mem (addr : Nat) (s : State) : (readPort addr s).mem = s.mem := rfl
@[simp] theorem readPort_sync1 (addr : Nat) (s : State) : (readPort addr s).sync1 = s.sync1 := rfl
@[simp] theorem readPort_sync2 (addr : Nat) (s : State) : (readPort addr s).sync2 = s.sync2 := rfl
@[simp] theorem readPort_rdData (addr : Nat) (s : State) : (readPort addr s).rdData = portByte (slotOf s.cfg addr) s := rfl
@[simp] theorem readPort_grayHeld (addr : Nat) (s : State) : (readPort addr s).grayHeld = s.grayHeld := rfl
@[simp] theorem readPort_inp (addr : Nat) (s : State) : (readPort addr s).inp = s.inp := rfl
@[simp] theorem readPort_result (addr : Nat) (s : State) : (readPort addr s).result = s.result := rfl
@[simp] theorem readPort_schedule (addr : Nat) (s : State) : (readPort addr s).schedule = s.schedule := rfl
@[simp] theorem readPort_edges (addr : Nat) (s : State) : (readPort addr s).edges = s.edges := rfl

@[simp] theorem sampleT_cfg (t : TIn) (s : State) : (sampleT t s).cfg = s.cfg := rfl
@[simp] theorem sampleT_now (t : TIn) (s : State) : (sampleT t s).now = s.now := rfl
@[simp] theorem sampleT_run (t : TIn) (s : State) : (sampleT t s).run = s.run := rfl
@[simp] theorem sampleT_deadline (t : TIn) (s : State) : (sampleT t s).deadline = s.deadline := rfl
@[simp] theorem sampleT_seq (t : TIn) (s : State) : (sampleT t s).seq = s.seq := rfl
@[simp] theorem sampleT_stopPend (t : TIn) (s : State) : (sampleT t s).stopPend = s.stopPend := rfl
@[simp] theorem sampleT_busReq (t : TIn) (s : State) : (sampleT t s).busReq = s.busReq := rfl
@[simp] theorem sampleT_ctlRespValid (t : TIn) (s : State) : (sampleT t s).ctlRespValid = s.ctlRespValid := rfl
@[simp] theorem sampleT_ctlErr (t : TIn) (s : State) : (sampleT t s).ctlErr = s.ctlErr := rfl
@[simp] theorem sampleT_pos (t : TIn) (s : State) : (sampleT t s).pos = s.pos := rfl
@[simp] theorem sampleT_posGray (t : TIn) (s : State) : (sampleT t s).posGray = s.posGray := rfl
@[simp] theorem sampleT_mem (t : TIn) (s : State) : (sampleT t s).mem = s.mem := rfl
@[simp] theorem sampleT_sync1 (t : TIn) (s : State) : (sampleT t s).sync1 = s.sync1 := rfl
@[simp] theorem sampleT_sync2 (t : TIn) (s : State) : (sampleT t s).sync2 = s.sync2 := rfl
@[simp] theorem sampleT_rdData (t : TIn) (s : State) : (sampleT t s).rdData = s.rdData := rfl
@[simp] theorem sampleT_grayHeld (t : TIn) (s : State) : (sampleT t s).grayHeld = s.grayHeld := rfl
@[simp] theorem sampleT_inp (t : TIn) (s : State) : (sampleT t s).inp = { s.inp with t := t } := rfl
@[simp] theorem sampleT_result (t : TIn) (s : State) : (sampleT t s).result = s.result := rfl
@[simp] theorem sampleT_schedule (t : TIn) (s : State) : (sampleT t s).schedule = s.schedule := rfl
@[simp] theorem sampleT_edges (t : TIn) (s : State) : (sampleT t s).edges = s.edges := rfl

@[simp] theorem sampleC_cfg (race : Option Nat) (c : CIn) (s : State) : (sampleC race c s).cfg = s.cfg := rfl
@[simp] theorem sampleC_now (race : Option Nat) (c : CIn) (s : State) : (sampleC race c s).now = s.now := rfl
@[simp] theorem sampleC_run (race : Option Nat) (c : CIn) (s : State) : (sampleC race c s).run = s.run := rfl
@[simp] theorem sampleC_deadline (race : Option Nat) (c : CIn) (s : State) : (sampleC race c s).deadline = s.deadline := rfl
@[simp] theorem sampleC_seq (race : Option Nat) (c : CIn) (s : State) : (sampleC race c s).seq = s.seq := rfl
@[simp] theorem sampleC_stopPend (race : Option Nat) (c : CIn) (s : State) : (sampleC race c s).stopPend = s.stopPend := rfl
@[simp] theorem sampleC_busReq (race : Option Nat) (c : CIn) (s : State) : (sampleC race c s).busReq = s.busReq := rfl
@[simp] theorem sampleC_ctlRespValid (race : Option Nat) (c : CIn) (s : State) : (sampleC race c s).ctlRespValid = s.ctlRespValid := rfl
@[simp] theorem sampleC_ctlErr (race : Option Nat) (c : CIn) (s : State) : (sampleC race c s).ctlErr = s.ctlErr := rfl
@[simp] theorem sampleC_pos (race : Option Nat) (c : CIn) (s : State) : (sampleC race c s).pos = s.pos := rfl
@[simp] theorem sampleC_posGray (race : Option Nat) (c : CIn) (s : State) : (sampleC race c s).posGray = s.posGray := rfl
@[simp] theorem sampleC_mem (race : Option Nat) (c : CIn) (s : State) : (sampleC race c s).mem = s.mem := rfl
@[simp] theorem sampleC_sync1 (race : Option Nat) (c : CIn) (s : State) : (sampleC race c s).sync1 = s.sync1 := rfl
@[simp] theorem sampleC_sync2 (race : Option Nat) (c : CIn) (s : State) : (sampleC race c s).sync2 = s.sync2 := rfl
@[simp] theorem sampleC_rdData (race : Option Nat) (c : CIn) (s : State) : (sampleC race c s).rdData = s.rdData := rfl
@[simp] theorem sampleC_grayHeld (race : Option Nat) (c : CIn) (s : State) : (sampleC race c s).grayHeld = s.grayHeld := rfl
@[simp] theorem sampleC_inp (race : Option Nat) (c : CIn) (s : State) : (sampleC race c s).inp = { s.inp with c := c, race := race } := rfl
@[simp] theorem sampleC_result (race : Option Nat) (c : CIn) (s : State) : (sampleC race c s).result = s.result := rfl
@[simp] theorem sampleC_schedule (race : Option Nat) (c : CIn) (s : State) : (sampleC race c s).schedule = s.schedule := rfl
@[simp] theorem sampleC_edges (race : Option Nat) (c : CIn) (s : State) : (sampleC race c s).edges = s.edges := rfl

@[simp] theorem clearPulses_cfg (s : State) : (clearPulses s).cfg = s.cfg := rfl
@[simp] theorem clearPulses_now (s : State) : (clearPulses s).now = s.now := rfl
@[simp] theorem clearPulses_run (s : State) : (clearPulses s).run = s.run := rfl
@[simp] theorem clearPulses_deadline (s : State) : (clearPulses s).deadline = s.deadline := rfl
@[simp] theorem clearPulses_seq (s : State) : (clearPulses s).seq = s.seq := rfl
@[simp] theorem clearPulses_stopPend (s : State) : (clearPulses s).stopPend = s.stopPend := rfl
@[simp] theorem clearPulses_busReq (s : State) : (clearPulses s).busReq = false := rfl
@[simp] theorem clearPulses_ctlRespValid (s : State) : (clearPulses s).ctlRespValid = false := rfl
@[simp] theorem clearPulses_ctlErr (s : State) : (clearPulses s).ctlErr = s.ctlErr := rfl
@[simp] theorem clearPulses_pos (s : State) : (clearPulses s).pos = s.pos := rfl
@[simp] theorem clearPulses_posGray (s : State) : (clearPulses s).posGray = s.posGray := rfl
@[simp] theorem clearPulses_mem (s : State) : (clearPulses s).mem = s.mem := rfl
@[simp] theorem clearPulses_sync1 (s : State) : (clearPulses s).sync1 = s.sync1 := rfl
@[simp] theorem clearPulses_sync2 (s : State) : (clearPulses s).sync2 = s.sync2 := rfl
@[simp] theorem clearPulses_rdData (s : State) : (clearPulses s).rdData = s.rdData := rfl
@[simp] theorem clearPulses_grayHeld (s : State) : (clearPulses s).grayHeld = s.grayHeld := rfl
@[simp] theorem clearPulses_inp (s : State) : (clearPulses s).inp = s.inp := rfl
@[simp] theorem clearPulses_result (s : State) : (clearPulses s).result = s.result := rfl
@[simp] theorem clearPulses_schedule (s : State) : (clearPulses s).schedule = s.schedule := rfl
@[simp] theorem clearPulses_edges (s : State) : (clearPulses s).edges = s.edges := rfl

@[simp] theorem countTime_cfg (s : State) : (countTime s).cfg = s.cfg := rfl
@[simp] theorem countTime_now (s : State) : (countTime s).now = timeAfter s.cfg s.now 1 := rfl
@[simp] theorem countTime_run (s : State) : (countTime s).run = s.run := rfl
@[simp] theorem countTime_deadline (s : State) : (countTime s).deadline = s.deadline := rfl
@[simp] theorem countTime_seq (s : State) : (countTime s).seq = s.seq := rfl
@[simp] theorem countTime_stopPend (s : State) : (countTime s).stopPend = s.stopPend := rfl
@[simp] theorem countTime_busReq (s : State) : (countTime s).busReq = s.busReq := rfl
@[simp] theorem countTime_ctlRespValid (s : State) : (countTime s).ctlRespValid = s.ctlRespValid := rfl
@[simp] theorem countTime_ctlErr (s : State) : (countTime s).ctlErr = s.ctlErr := rfl
@[simp] theorem countTime_pos (s : State) : (countTime s).pos = s.pos := rfl
@[simp] theorem countTime_posGray (s : State) : (countTime s).posGray = s.posGray := rfl
@[simp] theorem countTime_mem (s : State) : (countTime s).mem = s.mem := rfl
@[simp] theorem countTime_sync1 (s : State) : (countTime s).sync1 = s.sync1 := rfl
@[simp] theorem countTime_sync2 (s : State) : (countTime s).sync2 = s.sync2 := rfl
@[simp] theorem countTime_rdData (s : State) : (countTime s).rdData = s.rdData := rfl
@[simp] theorem countTime_grayHeld (s : State) : (countTime s).grayHeld = s.grayHeld := rfl
@[simp] theorem countTime_inp (s : State) : (countTime s).inp = s.inp := rfl
@[simp] theorem countTime_result (s : State) : (countTime s).result = s.result := rfl
@[simp] theorem countTime_schedule (s : State) : (countTime s).schedule = s.schedule := rfl
@[simp] theorem countTime_edges (s : State) : (countTime s).edges = s.edges := rfl

@[simp] theorem takeEvent_cfg (s : State) : (takeEvent s).cfg = s.cfg := rfl
@[simp] theorem takeEvent_now (s : State) : (takeEvent s).now = s.now := rfl
@[simp] theorem takeEvent_run (s : State) : (takeEvent s).run = s.run := rfl
@[simp] theorem takeEvent_deadline (s : State) : (takeEvent s).deadline = s.deadline := rfl
@[simp] theorem takeEvent_seq (s : State) : (takeEvent s).seq = s.seq := rfl
@[simp] theorem takeEvent_stopPend (s : State) : (takeEvent s).stopPend = s.stopPend := rfl
@[simp] theorem takeEvent_busReq (s : State) : (takeEvent s).busReq = s.busReq := rfl
@[simp] theorem takeEvent_ctlRespValid (s : State) : (takeEvent s).ctlRespValid = s.ctlRespValid := rfl
@[simp] theorem takeEvent_ctlErr (s : State) : (takeEvent s).ctlErr = s.ctlErr := rfl
@[simp] theorem takeEvent_pos (s : State) : (takeEvent s).pos = s.pos := rfl
@[simp] theorem takeEvent_posGray (s : State) : (takeEvent s).posGray = s.posGray := rfl
@[simp] theorem takeEvent_mem (s : State) : (takeEvent s).mem = s.mem := rfl
@[simp] theorem takeEvent_sync1 (s : State) : (takeEvent s).sync1 = s.sync1 := rfl
@[simp] theorem takeEvent_sync2 (s : State) : (takeEvent s).sync2 = s.sync2 := rfl
@[simp] theorem takeEvent_rdData (s : State) : (takeEvent s).rdData = s.rdData := rfl
@[simp] theorem takeEvent_grayHeld (s : State) : (takeEvent s).grayHeld = s.grayHeld := rfl
@[simp] theorem takeEvent_inp (s : State) : (takeEvent s).inp = s.inp := rfl
@[simp] theorem takeEvent_result (s : State) : (takeEvent s).result = s.result := rfl
@[simp] theorem takeEvent_schedule (s : State) : (takeEvent s).schedule = s.schedule.tail := rfl
@[simp] theorem takeEvent_edges (s : State) : (takeEvent s).edges = s.edges + 1 := rfl

end Sys2Proof.Machine
end

