-- ==== Sys2Proof/Laws/Ops.lean ====
section
/-! SUPPORT. What the shared operations with a case in them can do, said once: the end of a tick, an accepted START, an
accepted STOP, the draw of the synchroniser. -/

namespace Sys2Proof.Machine

@[simp] theorem writeAnswer_bytes (rx0 rx1 rx2 : Byte) (s : State) :
    writeAnswer (.bytes rx0 rx1 rx2) s = ringWrite (sampleOf rx1 rx2) s := rfl

@[simp] theorem writeAnswer_busError (status : Nat) (s : State) : writeAnswer (.busError status) s = s := rfl

/-- A completed tick as one record: the ring after the answer's write, the deadline one period further, phase WAIT, a
deferred STOP answered OK. -/
theorem completeTick_eq (a : Answer) (s : State) :
    completeTick a s =
      { s with
        mem := (writeAnswer a s).mem, pos := (writeAnswer a s).pos, posGray := (writeAnswer a s).posGray,
        grayHeld := (writeAnswer a s).grayHeld, result := acquired a,
        deadline := timeAfter s.cfg s.deadline s.cfg.period, seq := .wait, stopPend := false,
        ctlRespValid := s.stopPend || s.ctlRespValid, ctlErr := if s.stopPend then 0#1 else s.ctlErr } := by
  obtain ⟨cfg, now, run, deadline, seq, stopPend, busReq, rv, err, pos, pg, mem, s1, s2, rd, held, inp, res, sch, ed⟩ := s
  cases a <;> cases stopPend <;> rfl

/-- An accepted START either finds the timer Running, or fails to arm it, or arms it (42_scheduler R172). -/
theorem startAccepted_cases (s : State) :
    (s.run = .running ∧ startAccepted s = respond 0#1 s) ∨
    (s.run = .idle ∧ s.inp.t.tbOk = false ∧ startAccepted s = respond 1#1 s) ∨
    (s.run = .idle ∧ s.inp.t.tbOk = true ∧ startAccepted s = respond 0#1 (arm s)) := by
  unfold startAccepted
  cases s.run <;> cases s.inp.t.tbOk <;> simp

/-- An accepted STOP either finds the timer Idle, or disarms it and defers its answer, or disarms it and is answered
(42_scheduler R173). -/
theorem stopAccepted_cases (s : State) :
    (s.run = .idle ∧ stopAccepted s = respond 0#1 s) ∨
    (s.run = .running ∧ inFlight s = true ∧ stopAccepted s = deferStop (disarm s)) ∨
    (s.run = .running ∧ inFlight s = false ∧ stopAccepted s = respond 0#1 (disarm s)) := by
  unfold stopAccepted
  cases s.run <;> cases inFlight s <;> simp

/-- The draw is one of the codes held since the previous edge of `clk_c` (41_ring_buffer R144). -/
theorem drawnCode_mem {s : State} (h : s.grayHeld ≠ []) : drawnCode s ∈ s.grayHeld := by
  have hl : s.inp.c.pick % s.grayHeld.length < s.grayHeld.length :=
    Nat.mod_lt _ (List.length_pos_iff.mpr h)
  unfold drawnCode
  rw [List.getD_eq_getElem _ _ hl]
  exact List.getElem_mem hl

/-- If `pos_gray` did not change since the previous edge the draw is `pos_gray` (41_ring_buffer R144). -/
theorem drawnCode_single {s : State} {g : Nat} (h : s.grayHeld = [g]) : drawnCode s = g := by
  simp [drawnCode, h, Nat.mod_one]

end Sys2Proof.Machine
end

