-- ==== Sys2Proof/Laws/Edge.lean ====
section
/-! SUPPORT. What every operation, edge and step has in common: it answers a next state, and leaves the configuration,
the sampled inputs and the environment's schedule alone. -/

namespace Sys2Proof.Machine

@[simp] theorem andThen_next (s : State) (k : State → Host.Outcome State Fault Refusal) :
    andThen (.next s) k = k s := rfl

/-- Every operation answers a next state, and changes neither the configuration, nor `now`, nor what the environment
brought. -/
theorem exec_answers (i : Instr) (s : State) :
    ∃ t, exec i s = .next t ∧ t.cfg = s.cfg ∧ t.now = s.now ∧ t.inp = s.inp ∧ t.schedule = s.schedule ∧
      t.edges = s.edges := by
  cases i with
  | start =>
    simp only [exec, execStart]
    split
    · rcases startAccepted_cases s with ⟨-, h⟩ | ⟨-, -, h⟩ | ⟨-, -, h⟩ <;> simp [h]
    · simp
  | stop =>
    simp only [exec, execStop]
    split
    · rcases stopAccepted_cases s with ⟨-, h⟩ | ⟨-, -, h⟩ | ⟨-, -, h⟩ <;> simp [h]
    · simp
  | respOk => simp [exec, execRespOk]
  | respTimerArmFailure => simp [exec, execRespTimerArmFailure]
  | cmdAcq => simp [exec, execCmdAcq]
  | rspAcq u0 u1 rawHi rawLo =>
    simp only [exec, execRspAcq]
    split <;> simp [completeTick_eq]
  | cursor code =>
    simp only [exec, execCursor]
    split <;> simp
  | tick =>
    simp only [exec, execTick]
    split
    · simp [completeTick_eq]
    · split <;> simp
  | acquire =>
    simp only [exec, execAcquire]
    split
    · simp
    · split <;> simp
  | encode => simp [exec, execEncode]
  | exchange =>
    simp only [exec, execExchange]
    split
    · simp
    · split <;> simp
  | decode rx0 rx1 rx2 => simp [exec, execDecode]
  | truncate raw => simp [exec, execTruncate]
  | write sample => simp [exec, execWrite]
  | pos => simp [exec, execPos]
  | rd addr => simp [exec, execRd]
  | sync => simp [exec, execSync]

/-- The same for a list of operations. -/
theorem runOps_answers (is : List Instr) (s : State) :
    ∃ t, runOps is s = .next t ∧ t.cfg = s.cfg ∧ t.now = s.now ∧ t.inp = s.inp ∧ t.schedule = s.schedule ∧
      t.edges = s.edges := by
  induction is generalizing s with
  | nil => exact ⟨s, rfl, rfl, rfl, rfl, rfl, rfl⟩
  | cons i is ih =>
    obtain ⟨t, ht, h1, h2, h3, h4, h5⟩ := exec_answers i s
    obtain ⟨u, hu, g1, g2, g3, g4, g5⟩ := ih t
    exact ⟨u, by rw [runOps, ht]; exact hu, g1.trans h1, g2.trans h2, g3.trans h3, g4.trans h4, g5.trans h5⟩

/-- Operations run in order. -/
theorem runOps_append (is js : List Instr) (s : State) :
    runOps (is ++ js) s = andThen (runOps is s) (runOps js) := by
  induction is generalizing s with
  | nil => rfl
  | cons i is ih =>
    simp only [List.cons_append, runOps]
    cases exec i s with
    | next t => exact ih t
    | fault r => rfl
    | refused r => rfl

/-- A step with a scheduled event runs that event (00_scope R8). -/
theorem step_scheduled {s : State} {e : Event} {rest : List Event} (hc : s.cfg.wf = true)
    (h : s.schedule = e :: rest) :
    step s = runEvent e { s with schedule := rest, edges := s.edges + 1 } := by
  simp [step, hc, nextEvent, takeEvent, h]

/-- One more step of a run. -/
theorem runFor_succ (n : Nat) (s : State) : runFor (n + 1) s = andThen (step s) (runFor n) := rfl

/-- A run of `m + n` steps is a run of `m` steps and then one of `n`. -/
theorem runFor_add (m n : Nat) (s : State) : runFor (m + n) s = andThen (runFor m s) (runFor n) := by
  induction m generalizing s with
  | zero => simp [runFor]
  | succ m ih =>
    rw [Nat.succ_add, runFor_succ, runFor_succ]
    cases step s with
    | next t => exact ih t
    | fault r => rfl
    | refused r => rfl

/-- A successful answer decoded from the port and put together again is the bytes on the port (30_encoding R93). -/
theorem responseFrame_of_decoded (g : BusFrame) :
    responseFrame (g.extractLsb' 16 8) (g.extractLsb' 10 6) (g.extractLsb' 8 2) (g.extractLsb' 0 8) = g := by
  unfold responseFrame
  ext i hi
  simp only [BitVec.getElem_append, BitVec.getElem_extractLsb']
  repeat' split
  all_goals
    rw [← BitVec.getLsbD_eq_getElem]
    congr 1
    omega

/-- The bytes of a frame made of bytes (20_memory R62). -/
theorem byte1_busFrame (b0 b1 b2 : Byte) : byte1 (busFrame b0 b1 b2) = b1 := by
  unfold byte1 busFrame
  ext i hi
  simp only [BitVec.getElem_extractLsb', BitVec.getLsbD_append]
  split
  · omega
  · rw [if_pos (by omega), ← BitVec.getLsbD_eq_getElem]
    congr 1
    omega

theorem byte2_busFrame (b0 b1 b2 : Byte) : byte2 (busFrame b0 b1 b2) = b2 := by
  unfold byte2 busFrame
  ext i hi
  simp only [BitVec.getElem_extractLsb', BitVec.getLsbD_append]
  rw [if_pos (by omega), ← BitVec.getLsbD_eq_getElem]
  congr 1
  omega

theorem byte0_busFrame (b0 b1 b2 : Byte) : byte0 (busFrame b0 b1 b2) = b0 := by
  unfold byte0 busFrame
  ext i hi
  simp only [BitVec.getElem_extractLsb', BitVec.getLsbD_append]
  rw [if_neg (by omega), if_neg (by omega), ← BitVec.getLsbD_eq_getElem]
  congr 1
  omega

/-- A one-bit code is 0 or 1. -/
theorem codeBit_cases (b : CodeBit) : b = 0#1 ∨ b = 1#1 := by
  have := b.isLt
  rcases (show b.toNat = 0 ∨ b.toNat = 1 by omega) with h | h
  · exact .inl (BitVec.eq_of_toNat_eq h)
  · exact .inr (BitVec.eq_of_toNat_eq h)

/-- The decoded response, run with a tick in flight, ends the tick with the bytes on the port. -/
theorem exec_decodeBusRx {b0 b1 b2 : Byte} {s : State} (h : s.seq = .exch) :
    exec (decodeBusRx (busFrame b0 b1 b2)) s = .next (completeTick (.bytes b0 b1 b2) s) := by
  simp [decodeBusRx, exec, execRspAcq, responseFrame_of_decoded, byte0_busFrame, byte1_busFrame, byte2_busFrame, h]

/-- The completion part of an edge, on conditions of the pre-edge state `p`. -/
def completionPart (p s : State) : State := if complete p then completeTick (answerOf p) s else s

/-- The command part of an edge. -/
def commandPart (p s : State) : State :=
  if isStart p then startAccepted s else if isStop p then stopAccepted s else s

/-- The firing part of an edge. -/
def firingPart (p s : State) : State := if fire p then enterTick s else s

theorem runOps_completion {p s : State} (hseq : s.seq = p.seq) (hinp : s.inp = p.inp) (hcfg : s.cfg = p.cfg) :
    runOps (completionOps p) s = .next (completionPart p s) := by
  have hc : complete s = complete p := by simp [complete, hseq, hinp]
  have ha : answerOf s = answerOf p := by simp [answerOf, hinp, hcfg]
  unfold completionOps completionPart
  cases h : complete p with
  | false => rfl
  | true =>
    have hx : s.seq = .exch := by
      simp only [complete, Bool.and_eq_true, decide_eq_true_eq] at h
      exact hseq.trans h.1
    cases hb : p.inp.t.busErr with
    | true => simp [runOps, exec, execTick, hc, h, ha]
    | false => simp [runOps, exec_decodeBusRx hx, answerOf, hb]

theorem runOps_command {p s : State} (hstop : accept p = true → s.stopPend = false) :
    runOps (commandOps p) s = .next (commandPart p s) := by
  unfold commandOps commandPart isStart isStop
  cases h : accept p with
  | false => rfl
  | true =>
    rcases codeBit_cases p.inp.t.ctlOp with hop | hop <;>
      simp [runOps, decodeCtl, hop, exec, execStop, execStart, ctlReady, hstop h]

theorem runOps_firing {p s : State} (hf : fire p = true → complete s = false ∧ fire s = true) :
    runOps (firingOps p) s = .next (firingPart p s) := by
  unfold firingOps firingPart
  cases h : fire p with
  | false => rfl
  | true => simp [runOps, exec, execTick, hf h]

/-- The operations of an edge of `clk_t`, run in order, are its three parts. -/
theorem runOps_tickDomain (p : State) :
    runOps (tickDomainOps p) (clearPulses p) =
      .next (firingPart p (commandPart p (completionPart p (clearPulses p)))) := by
  unfold tickDomainOps
  rw [runOps_append, runOps_append, runOps_completion (p := p) (s := clearPulses p) rfl rfl rfl, andThen_next, runOps_command, andThen_next,
    runOps_firing]
  · intro hf
    have hp := hf
    simp only [fire, pending, Bool.and_eq_true, decide_eq_true_eq, Bool.not_eq_true'] at hf
    obtain ⟨⟨⟨hr, hre⟩, hw⟩, hs⟩ := hf
    have hc : complete p = false := by simp [complete, hw]
    have hq : commandPart p (completionPart p (clearPulses p)) = clearPulses p ∨
        commandPart p (completionPart p (clearPulses p)) = respond 0#1 (clearPulses p) := by
      rw [completionPart, hc, if_neg (by simp), commandPart, hs]
      split
      · right; simp [startAccepted, hr]
      · left; simp
    rcases hq with hq | hq <;> rw [hq] <;> exact ⟨hc, hp⟩
  · intro ha
    have h0 : p.stopPend = false := by
      simp only [accept, ctlReady, Bool.and_eq_true, Bool.not_eq_true'] at ha
      exact ha.2
    unfold completionPart
    split
    · simp [completeTick_eq]
    · exact h0

/-- ONE EDGE OF `clk_t` AS A FUNCTION (42_scheduler R170): the completion, the command and the firing, on conditions of
the pre-edge state, between the defaults and the count of `now`. -/
theorem clkTEdge_eq (t : TIn) (s : State) :
    clkTEdge t s = .next (countTime (firingPart (sampleT t s) (commandPart (sampleT t s)
      (completionPart (sampleT t s) (clearPulses (sampleT t s)))))) := by
  rw [clkTEdge, runOps_tickDomain, andThen_next]

/-- ONE EDGE OF `clk_c` AS A FUNCTION (41_ring_buffer R143, R144, R148). -/
theorem clkCEdge_eq (race : Option Nat) (c : CIn) (s : State) :
    clkCEdge race c s = .next (readPort c.rdAddr (syncCapture (drawnCode (sampleC race c s))
      (if c.readPos then setResult (.index (posC s)) (sampleC race c s) else sampleC race c s))) := by
  unfold clkCEdge consumerDomainOps
  cases h : c.readPos <;> simp [h, runOps, exec, execPos, execSync, execRd, posC, drawnCode]

end Sys2Proof.Machine
end

