-- ==== Sys2Proof/Laws/Consumer.lean ====
section
/-! SUPPORT. The consumer and its system with the block: what each operation of the consumer leaves alone, and one event
of the system as one step of the block. -/

namespace Sys2Proof.Machine

@[simp] theorem tickTrain_nil : tickTrain [] = [] := rfl

@[simp] theorem tickTrain_append (es fs : List Event) : tickTrain (es ++ fs) = tickTrain es ++ tickTrain fs :=
  List.filterMap_append

@[simp] theorem tickTrain_clkT (t : TIn) (es : List Event) : tickTrain (.clkT t :: es) = t :: tickTrain es := rfl

@[simp] theorem tickTrain_clkC (c : CIn) (es : List Event) : tickTrain (.clkC c :: es) = tickTrain es := rfl

@[simp] theorem tickTrain_both (t : TIn) (c : CIn) (f : Bool) (es : List Event) :
    tickTrain (.both t c f :: es) = t :: tickTrain es := rfl

/-- Driving `rd_addr` changes nothing for the tick domain. -/
@[simp] theorem tickInputs_driveAddress (a : Nat) (e : Event) : tickInputs (driveAddress a e) = tickInputs e := by
  cases e <;> rfl

@[simp] theorem noReset_driveAddress_reset (a : Nat) : driveAddress a .reset = .reset := rfl

@[simp] theorem begin_lastPos (p : Nat) (u : Consumer) : (u.begin p).lastPos = u.lastPos := by
  unfold Consumer.begin; split <;> rfl

@[simp] theorem begin_copied (p : Nat) (u : Consumer) : (u.begin p).copied = u.copied := by
  unfold Consumer.begin; split <;> rfl

@[simp] theorem take_lastPos (v : Byte) (u : Consumer) : (u.take v).lastPos = u.lastPos := by
  unfold Consumer.take; split <;> rfl

@[simp] theorem take_copied (v : Byte) (u : Consumer) : (u.take v).copied = u.copied := by
  unfold Consumer.take; split <;> rfl

@[simp] theorem sampled_lastPos (s : State) (e : Event) (u : Consumer) : (u.sampled s e).lastPos = u.lastPos := by
  unfold Consumer.sampled; split
  · split <;> simp
  · rfl

@[simp] theorem sampled_copied (s : State) (e : Event) (u : Consumer) : (u.sampled s e).copied = u.copied := by
  unfold Consumer.sampled; split
  · split <;> simp
  · rfl

/-- A POS during a poll does not disturb it. -/
theorem sampled_of_polling {s : State} {e : Event} {u : Consumer} {q : Poll} (h : u.poll = some q) :
    u.sampled s e = u := by
  unfold Consumer.sampled Consumer.begin
  split
  · split <;> simp [h]
  · rfl

/-- What the end of a poll can be: nothing, while there is none or it is not over; else `lastPos = p`. -/
theorem finish_cases (c : Config) (u : Consumer) :
    ((u.poll = none ∨ ∃ q, u.poll = some q ∧ q.out.length < Consumer.avail c q.p u.lastPos) ∧ u.finish c = u) ∨
      ∃ q, u.poll = some q ∧ Consumer.avail c q.p u.lastPos ≤ q.out.length ∧
        u.finish c = { lastPos := q.p, poll := none, copied := u.copied ++ q.out } := by
  cases hp : u.poll with
  | none => exact .inl ⟨.inl rfl, by simp [Consumer.finish, hp]⟩
  | some q =>
    by_cases hl : q.out.length < Consumer.avail c q.p u.lastPos
    · exact .inl ⟨.inr ⟨q, rfl, hl⟩, by simp [Consumer.finish, hp, hl]⟩
    · exact .inr ⟨q, rfl, Nat.le_of_not_lt hl, by simp [Consumer.finish, hp, hl]⟩

/-- A slot is copied only in a poll that is not over, at an edge of `clk_c`, and it is the poll's next. -/
theorem copies_some {s : State} {e : Event} {copy : Bool} {u : Consumer} {slot : Nat}
    (h : u.copies s e copy = some slot) :
    copy = true ∧ (∃ c, consumerInputs e = some c) ∧
      ∃ q, (u.sampled s e).poll = some q ∧ q.out.length < Consumer.avail s.cfg q.p u.lastPos ∧
        slot = (u.lastPos + q.out.length) % s.cfg.slots := by
  unfold Consumer.copies at h
  split at h
  · rename_i hc
    rw [Bool.and_eq_true, Option.isSome_iff_exists] at hc
    refine ⟨hc.1, hc.2, ?_⟩
    unfold Consumer.wanted at h
    split at h
    · cases h
    · rename_i q hq
      split at h
      · rename_i hl
        simp only [sampled_lastPos] at hl h
        exact ⟨q, hq, hl, (Option.some.inj h).symm⟩
      · cases h
  · cases h

/-- ONE EVENT OF THE SYSTEM: one step of the block at the event the consumer drives, and the consumer after it. -/
theorem edge_eq {e : Event} {copy : Bool} {y : System} (hc : y.block.cfg.wf = true) :
    ∃ s, runEvent (y.driven e copy) { y.block with edges := y.block.edges + 1 } = .next s ∧
      y.edge e copy = .next { block := s, consumer := y.consumerAfter e copy s } := by
  have hs : step { y.block with schedule := y.driven e copy :: y.block.schedule } =
      runEvent (y.driven e copy) { y.block with edges := y.block.edges + 1 } :=
    step_scheduled (s := { y.block with schedule := y.driven e copy :: y.block.schedule }) hc rfl
  have hn : ∃ s, runEvent (y.driven e copy) { y.block with edges := y.block.edges + 1 } = .next s := by
    unfold runEvent
    split
    · exact ⟨_, clkTEdge_eq _ _⟩
    · exact ⟨_, clkCEdge_eq _ _ _⟩
    · simp only [clkTEdge_eq, clkCEdge_eq, andThen_next]
      split <;> exact ⟨_, rfl⟩
    · exact ⟨_, rfl⟩
  obtain ⟨s, h⟩ := hn
  exact ⟨s, h, by simp [System.edge, hs, h]⟩

end Sys2Proof.Machine
end

