-- ==== Sys2Proof/Laws/PerInstr.lean ====
section
/-! SUPPORT. Per-operation lemmas about the syntax: every operation's encoding stands on the port of its row's format,
with that format's fixed length, and the operations of format EVENT have none (30_encoding R90, R99). -/

namespace Sys2Proof.Laws

/-- The word an operation is encoded as has the format of its row and that format's length; an operation selected by an
event has none. -/
def EncodingFormat.Statement (i : Instr) : Prop :=
  ∀ aw, (encode aw i).map (fun f => (f.format, f.nbits)) =
    if i.format = .event then none else some (i.format, i.format.width aw)

theorem EncodingFormat.start : EncodingFormat.Statement .start := fun _ => rfl
theorem EncodingFormat.stop : EncodingFormat.Statement .stop := fun _ => rfl
theorem EncodingFormat.respOk : EncodingFormat.Statement .respOk := fun _ => rfl
theorem EncodingFormat.respTimerArmFailure : EncodingFormat.Statement .respTimerArmFailure := fun _ => rfl
theorem EncodingFormat.cmdAcq : EncodingFormat.Statement .cmdAcq := fun _ => rfl
theorem EncodingFormat.rspAcq (u0 : BitVec 8) (u1 : BitVec 6) (rawHi : BitVec 2) (rawLo : BitVec 8) :
    EncodingFormat.Statement (.rspAcq u0 u1 rawHi rawLo) := fun _ => rfl
theorem EncodingFormat.cursor (code : Nat) : EncodingFormat.Statement (.cursor code) := fun _ => rfl
theorem EncodingFormat.tick : EncodingFormat.Statement .tick := fun _ => rfl
theorem EncodingFormat.acquire : EncodingFormat.Statement .acquire := fun _ => rfl
theorem EncodingFormat.encode : EncodingFormat.Statement .encode := fun _ => rfl
theorem EncodingFormat.exchange : EncodingFormat.Statement .exchange := fun _ => rfl
theorem EncodingFormat.decode (rx0 rx1 rx2 : Byte) : EncodingFormat.Statement (.decode rx0 rx1 rx2) := fun _ => rfl
theorem EncodingFormat.truncate (raw : RawReading) : EncodingFormat.Statement (.truncate raw) := fun _ => rfl
theorem EncodingFormat.write (sample : Sample) : EncodingFormat.Statement (.write sample) := fun _ => rfl
theorem EncodingFormat.pos : EncodingFormat.Statement .pos := fun _ => rfl
theorem EncodingFormat.rd (addr : Nat) : EncodingFormat.Statement (.rd addr) := fun _ => rfl
theorem EncodingFormat.sync : EncodingFormat.Statement .sync := fun _ => rfl

end Sys2Proof.Laws
end

