-- ==== Sys2Proof/Tests/Slice0.lean ====
section
/-! SUPPORT. Tests. Expected values are written from the spec's encoding tables and from the vectors of
spec/95_test_vectors.md (named beside each test), never from the model's answers. The last part shows, for every
obligation with hypotheses, a concrete state and operands that meet them all. -/

namespace Sys2Proof.Tests

open Sys2Proof.Machine Sys2Proof.Safety

/-! ## WellFormed -/

/-- 00_scope R12 (a): a ring of one slot is refused. -/
theorem test_wf_rejects_one_slot : ({ smallConfig with aw := 0 } : Config).wf = false := by decide

/-- 00_scope R12 (b): a period of 0 is refused. -/
theorem test_wf_rejects_period_zero : ({ smallConfig with period := 0 } : Config).wf = false := by decide

/-- 00_scope R12 (c): `TW = 1` is refused. -/
theorem test_wf_rejects_narrow_time : ({ smallConfig with tw := 1, period := 1 } : Config).wf = false := by decide

/-- 00_scope R12 (c): `P = 2 ^ (TW - 2)` is refused, one less is accepted. -/
theorem test_wf_period_bound :
    ({ smallConfig with tw := 8, period := 64 } : Config).wf = false ∧
      ({ smallConfig with tw := 8, period := 63 } : Config).wf = true := by decide

/-- Both example configurations are accepted. -/
theorem test_wf_accepts : Config.default.wf = true ∧ smallConfig.wf = true := by decide

/-- 30_encoding R98: a cursor code of more than `AW` bits is ill-formed; the largest code is not. -/
theorem test_wf_cursor_bound :
    (Instr.cursor 4).wf smallConfig = false ∧ (Instr.cursor 3).wf smallConfig = true := by decide

/-- 20_memory R60: an index of more than `AW` bits is ill-formed; the last slot is not. -/
theorem test_wf_rd_bound : (Instr.rd 4).wf smallConfig = false ∧ (Instr.rd 3).wf smallConfig = true := by decide

/-! ## Decode -/

/-- CTL 1 is START (30_encoding R96). -/
theorem test_decode_start : decode 13 { format := .ctl, nbits := 1, value := 0b1 } = .ok .start := rfl

/-- CTL 0 is STOP (30_encoding R96). -/
theorem test_decode_stop : decode 13 { format := .ctl, nbits := 1, value := 0b0 } = .ok .stop := rfl

/-- CRSP 0 is OK (30_encoding R97). -/
theorem test_decode_resp_ok : decode 13 { format := .crsp, nbits := 1, value := 0b0 } = .ok .respOk := rfl

/-- CRSP 1 is TimerArmFailure (30_encoding R97). -/
theorem test_decode_resp_timer_arm_failure :
    decode 13 { format := .crsp, nbits := 1, value := 0b1 } = .ok .respTimerArmFailure := rfl

/-- COD-1: `00000001 10000000 00000000`. -/
theorem test_decode_cmd_acq :
    decode 13 { format := .bustx, nbits := 24, value := 0b000000011000000000000000 } = .ok .cmdAcq := rfl

/-- COD-16: `AA FD 90`, fields written out from 30_encoding R93. -/
theorem test_decode_rsp_acq :
    decode 13 { format := .busrx, nbits := 24, value := 0b101010101111110110010000 } =
      .ok (.rspAcq 0b10101010 0b111111 0b01 0b10010000) := rfl

/-- V-GRAY: the code of 4096 at `AW = 13`. -/
theorem test_decode_cursor :
    decode 13 { format := .gray, nbits := 13, value := 0b1100000000000 } = .ok (.cursor 0x1800) := rfl

/-- The same frame from its bytes in exchange order (20_memory R62). -/
theorem test_decode_bytes :
    decodeBytes .busrx [0xAA#8, 0xFD#8, 0x90#8] = .ok (.rspAcq 0xAA 0x3F 0x1 0x90) ∧
      decodeBytes .bustx [0x01#8, 0x80#8, 0x00#8] = .ok .cmdAcq := ⟨rfl, rfl⟩

/-- Refused by name: a frame of two bytes, a value past the width, another command, a word for an event. -/
theorem test_decode_refusals :
    decodeBytes .busrx [0xAA#8, 0xFD#8] = .error .wrongLength ∧
      decode 13 { format := .ctl, nbits := 1, value := 2 } = .error .valueTooWide ∧
      decode 13 { format := .bustx, nbits := 24, value := 0x018100 } = .error .notTheCommand ∧
      decode 13 { format := .event, nbits := 0, value := 0 } = .error .noEncoding := ⟨rfl, rfl, rfl, rfl⟩

/-- The table's own words, in the bit widths the host asks with. -/
theorem test_decode_table_words :
    decodeTableWord 8 1 = some .start ∧ decodeTableWord 8 0 = some .stop ∧
      decodeTableWord 24 0x018000 = some .cmdAcq ∧ decodeTableWord 24 0 = some (.rspAcq 0 0 0 0) ∧
      decodeTableWord 16 0 = some (.cursor 0) ∧ decodeTableWord 0 0 = none := ⟨rfl, rfl, rfl, rfl, rfl, rfl⟩

/-! ## The placed word is what the next step runs -/

/-- START as the first operation after reset: Running, one period to go. -/
theorem test_place_start :
    (match step (State.reset.withFetchWord 8 1) with
      | .next t => some (t.run, t.deadline, t.ctlRespValid) | .fault _ => none | .refused _ => none) =
      some (.running, 1000, true) := by decide

/-- CMD_ACQ: the tick fires. -/
theorem test_place_cmd_acq :
    (match step (State.reset.withFetchWord 24 0x018000) with
      | .next t => some (t.seq, t.busReq) | .fault _ => none | .refused _ => none) =
      some (.exch, true) := by decide

/-- RSP_ACQ `00 01 90`: the sample 100 is stored. -/
theorem test_place_rsp_acq :
    (match step (State.reset.withFetchWord 24 0x000190) with
      | .next t => some (readSlot t 0, t.pos) | .fault _ => none | .refused _ => none) =
      some (100#8, 1) := by decide

/-- CURSOR with the code of 4096: the synchroniser takes it. -/
theorem test_place_cursor :
    (match step (State.reset.withFetchWord 16 0x1800) with
      | .next t => some (t.sync1, t.pos) | .fault _ => none | .refused _ => none) =
      some (0x1800, 4096) := by decide

/-! ## One step each -/

/-- The state after one event, none where the step stops. -/
def after (e : Event) (s : State) : Option State :=
  match step { s with schedule := [e] } with
  | .next t => some t
  | .fault _ => none
  | .refused _ => none

/-- What one operation answers, none where it stops. -/
def ran (i : Instr) (s : State) : Option State :=
  match exec i s with
  | .next t => some t
  | .fault _ => none
  | .refused _ => none

/-- Running and due: `now = 110`, `deadline = 110`. -/
def due : State := { small with now := 110, run := .running, deadline := 110 }

/-- Running with a tick in flight: `now = 112`, `deadline = 110`. -/
def flying : State := { small with now := 112, run := .running, seq := .exch, deadline := 110 }

/-- A tick in flight and a STOP not yet answered. -/
def stopping : State := { small with now := 112, seq := .exch, stopPend := true, deadline := 110 }

/-- The answer `00 01 90` (raw 400). -/
def answer400 : TIn := TIn.answering 0x000190#24

/-- A failed exchange with status 5. -/
def failure5 : TIn := { TIn.quiet with busDone := true, busErr := true, busStatus := 5 }

/-- SCH-1. -/
theorem test_start_from_idle :
    (after (.clkT (TIn.commanding 1#1)) { small with now := 100 }).map
      (fun t => (t.now, t.run, t.deadline, t.ctlRespValid, t.ctlErr)) = some (101, .running, 110, true, 0#1) := by
  decide

/-- SCH-2. -/
theorem test_start_timer_arm_failure :
    (after (.clkT { TIn.commanding 1#1 with tbOk := false }) { small with now := 100 }).map
      (fun t => (t.run, t.deadline, t.ctlRespValid, t.ctlErr)) = some (.idle, 0, true, 1#1) := by decide

/-- SCH-8: STOP wins over a fire at the same edge. -/
theorem test_stop_wins_over_fire :
    (after (.clkT (TIn.commanding 0#1)) due).map
      (fun t => (t.run, t.seq, t.busReq, t.ctlRespValid, t.ctlErr)) =
      some (.idle, .wait, false, true, 0#1) := by decide

/-- SCH-16: STOP with a tick in flight is answered later. -/
theorem test_stop_deferred :
    (after (.clkT (TIn.commanding 0#1)) flying).map (fun t => (t.run, t.seq, t.stopPend, t.ctlRespValid)) =
      some (.idle, .exch, true, false) := by decide

/-- SCH-7. -/
theorem test_tick_fires :
    (after (.clkT TIn.quiet) due).map (fun t => (t.now, t.seq, t.busReq, t.deadline)) =
      some (111, .exch, true, 110) := by decide

/-- SCH-12. -/
theorem test_tick_fails :
    (after (.clkT failure5) flying).map (fun t => (t.pos, t.mem, t.deadline, t.seq)) =
      some (0, [], 120, .wait) := by decide

/-- SCH-11. -/
theorem test_response_completes :
    (after (.clkT answer400) flying).map (fun t => (readSlot t 0, t.pos, t.posGray, t.deadline, t.seq)) =
      some (100#8, 1, 1, 120, .wait) := by decide

/-- SCH-18: a deferred STOP is answered at the completion. -/
theorem test_response_releases_stop :
    (after (.clkT (TIn.answering 0x000008#24)) { stopping with pos := 1, posGray := 1 }).map
      (fun t => (readSlot t 1, t.pos, t.stopPend, t.ctlRespValid, t.ctlErr)) =
      some (2#8, 2, false, true, 0#1) := by decide

/-- 30_encoding R97. -/
theorem test_response_codes :
    (ran .respOk small).map (fun t => (t.ctlRespValid, t.ctlErr)) = some (true, 0#1) ∧
      (ran .respTimerArmFailure small).map (fun t => (t.ctlRespValid, t.ctlErr)) = some (true, 1#1) := by decide

/-- COD-1. -/
theorem test_encode :
    (ran .encode small).map (fun t => t.result) = some (.frame 0x018000#24) ∧
      (ran .cmdAcq small).map (fun t => (t.busReq, t.result)) = some (true, .frame 0x018000#24) := by decide

/-- COD-18 and COD-17. -/
theorem test_decode_reading :
    (ran (.decode 0x00 0xFF 0xFF) small).map (fun t => t.result) = some (.raw 1023#10) ∧
      (ran (.decode 0x5A 0x04 0x04) small).map (fun t => t.result) = some (.raw 4#10) := by decide

/-- COD-5 and COD-13. -/
theorem test_truncate :
    (ran (.truncate 3#10) small).map (fun t => t.result) = some (.sample 0#8) ∧
      (ran (.truncate 1020#10) small).map (fun t => t.result) = some (.sample 255#8) := by decide

/-- COD-19 and COD-20. -/
theorem test_acquire :
    (ran .acquire (sampleT answer400 flying)).map (fun t => t.result) = some (.sample 100#8) ∧
      (ran .acquire (sampleT failure5 flying)).map (fun t => t.result) = some (.busError 5) := by decide

/-- 40_codec R121: the request, then the answer. -/
theorem test_exchange :
    (ran .exchange small).map (fun t => t.busReq) = some true ∧
      (ran .exchange (sampleT answer400 flying)).map (fun t => t.result) =
        some (.answer (.bytes 0x00#8 0x01#8 0x90#8)) := by decide

/-- RING-5: the last slot of the default ring, and the wrap. -/
theorem test_write_wraps :
    (ran (.write 0x7F) { State.reset with pos := 8191, posGray := 0x1000 }).map
      (fun t => (readSlot t 8191, t.pos, t.posGray)) = some (0x7F#8, 0, 0) := by decide

/-- RING-3. -/
theorem test_write_keeps_the_others :
    (ran (.write 0x64) { small with pos := 3, posGray := 2, mem := [(0, 255), (1, 1), (2, 100)] }).map
      (fun t => (t.mem, t.pos, t.posGray)) = some ([(0, 255), (1, 1), (2, 100), (3, 100)], 0, 0) := by decide

/-- RING-8. -/
theorem test_pos : (ran .pos { small with sync2 := 2 }).map (fun t => t.result) = some (.index 3) := by decide

/-- RING-6 and RING-7. -/
theorem test_rd :
    (ran (.rd 2) { small with cfg := { smallConfig with memInit := 0x80 } }).map (fun t => t.rdData) = some 0x80#8 ∧
      (ran (.rd 2) { small with mem := [(0, 255), (1, 1), (2, 100)] }).map (fun t => t.rdData) = some 100#8 := by
  decide

/-- SYNC-8, both draws: `sync1 = 11, sync2 = 01`, `H = {11, 10}`. -/
theorem test_sync_draws :
    let s : State := { small with sync1 := 3, sync2 := 1, pos := 3, posGray := 2, grayHeld := [3, 2] }
    (after (.clkC CIn.quiet) s).map (fun t => (t.sync1, t.sync2, posC t)) = some (3, 3, 2) ∧
      (after (.clkC { CIn.quiet with pick := 1 }) s).map (fun t => (t.sync1, t.sync2, posC t)) = some (2, 3, 2) := by
  decide

/-- SYNC-2 as a trace line: after one WRITE, `CEDGE 1` captures the old code or the new one, as the environment
draws. -/
theorem test_trace_draws :
    let s : State := { small with pos := 1, posGray := 1, grayHeld := [0, 1] }
    let captured := fun pick =>
      match runTrace (fun _ => { CIn.quiet with pick := pick }) [.cedge 1] s with
      | .next t => some t.sync1
      | .fault _ => none
      | .refused _ => none
    captured 0 = some 0 ∧ captured 1 = some 1 := by decide

/-- SYNC-2: a code the cursor held is captured, `11` never is. -/
theorem test_cursor :
    let s : State := { small with pos := 1, posGray := 1, grayHeld := [0, 1] }
    (ran (.cursor 1) s).map (fun t => (t.sync1, t.sync2)) = some (1, 0) ∧
      (ran (.cursor 3) s).map (fun t => (t.sync1, t.sync2)) = some (0, 0) := by decide

/-- RING-12: a read unordered with the write of its slot returns the environment's byte; the slot takes the sample. -/
theorem test_collision :
    (after (.both answer400 { CIn.quiet with rdAddr := 0, junk := 0xA5 } true) flying).map
      (fun t => (t.rdData, readSlot t 0)) = some (0xA5#8, 100#8) := by decide

/-- RST-1. -/
theorem test_reset_event :
    (after .reset { flying with pos := 2, mem := [(0, 7)], sync2 := 3 }).map registers = some (registers small) := by
  decide

/-- WRAP-3, WRAP-4. -/
theorem test_reached :
    reached 8 0 250 = true ∧ reached 8 249 250 = false ∧ reached 8 121 250 = true ∧ reached 8 122 250 = false := by
  decide

/-- V-GRAY, `AW = 3`. -/
theorem test_gray :
    (List.range 8).map bin2gray = [0b000, 0b001, 0b011, 0b010, 0b110, 0b111, 0b101, 0b100] ∧
      [0b000, 0b001, 0b011, 0b010, 0b110, 0b111, 0b101, 0b100].map (gray2bin 3) = [0, 1, 2, 3, 4, 5, 6, 7] := by
  decide

/-- CONS-6 and CONS-8. -/
theorem test_consumer :
    Consumer.copySlots smallConfig 1 2 = [2, 3, 0] ∧
      Consumer.copySlots Config.default 3 8190 = [8190, 8191, 0, 1, 2] := by decide

/-! ## Witnesses: for every obligation with hypotheses, a state and operands that meet them all -/

/-- `due` is a state of the invariant, with a due tick. -/
theorem witness_inv_due : Inv due where
  cfg := by decide
  widths := by constructor <;> decide
  consistent := by
    constructor
    · decide
    · decide
    · decide
    · decide
    · exact ⟨0, by decide, rfl⟩
    · exact ⟨0, by decide, rfl⟩
    · decide
    · intro g hg
      exact ⟨0, by decide, List.mem_singleton.mp hg⟩

/-- `flying` is a state of the invariant, with a tick in flight. -/
theorem witness_inv_flying : Inv flying where
  cfg := by decide
  widths := by constructor <;> decide
  consistent := by
    constructor
    · decide
    · decide
    · decide
    · decide
    · exact ⟨0, by decide, rfl⟩
    · exact ⟨0, by decide, rfl⟩
    · decide
    · intro g hg
      exact ⟨0, by decide, List.mem_singleton.mp hg⟩

/-- `stopping` is a state of the invariant, with a deferred STOP. -/
theorem witness_inv_stopping : Inv stopping where
  cfg := by decide
  widths := by constructor <;> decide
  consistent := by
    constructor
    · decide
    · decide
    · decide
    · decide
    · exact ⟨0, by decide, rfl⟩
    · exact ⟨0, by decide, rfl⟩
    · decide
    · intro g hg
      exact ⟨0, by decide, List.mem_singleton.mp hg⟩

/-- The state after reset is one too. -/
theorem witness_inv_small : Inv small where
  cfg := by decide
  widths := by constructor <;> decide
  consistent := by
    constructor
    · decide
    · decide
    · decide
    · decide
    · exact ⟨0, by decide, rfl⟩
    · exact ⟨0, by decide, rfl⟩
    · decide
    · intro g hg
      exact ⟨0, by decide, List.mem_singleton.mp hg⟩

/-- The invariant does not look at the schedule. -/
theorem inv_with_schedule {s : State} (h : Inv s) (es : List Event) : Inv { s with schedule := es } :=
  ⟨h.cfg, ⟨h.widths.now, h.widths.deadline, h.widths.pos, h.widths.posGray, h.widths.sync1, h.widths.sync2,
    h.widths.mem⟩, ⟨h.consistent.i1, h.consistent.i2, h.consistent.i3, h.consistent.i4, h.consistent.i5_sync1,
    h.consistent.i5_sync2, h.consistent.held_last, h.consistent.held_codes⟩⟩

/-- DecodeOfEncode: the largest cursor code, and a response. -/
theorem witness_decode_of_encode :
    (Instr.cursor 3).wf smallConfig = true ∧
      encode 2 (.cursor 3) = some { format := .gray, nbits := 2, value := 3 } ∧
      (Instr.rspAcq 0xFF 0x3F 3 0xFF).wf smallConfig = true ∧
      encode 2 (.rspAcq 0xFF 0x3F 3 0xFF) = some { format := .busrx, nbits := 24, value := 0xFFFFFF } := by decide

/-- EncodeOfDecode. -/
theorem witness_encode_of_decode : decode 2 { format := .gray, nbits := 2, value := 3 } = .ok (.cursor 3) := rfl

/-- LegalWordsOfEachFormat: the largest value of each format, the command and its neighbour, a wrong length. -/
theorem witness_legal_words :
    1 < 2 ^ Format.width 13 .ctl ∧ 1 < 2 ^ Format.width 13 .crsp ∧ 0xFFFFFF < 2 ^ Format.width 13 .busrx ∧
      8191 < 2 ^ Format.width 13 .gray ∧ (0x018000 : Nat) < 2 ^ 24 ∧ (0xFFFFFF : Nat) < 2 ^ 24 ∧
      2 ≠ Format.width 13 .ctl := by decide

/-- SampleIsTheTopBits: two bytes that differ in the discarded bits only. -/
theorem witness_discarded_bits :
    (0xFD#8).extractLsb' 0 2 = answer400.busRx1.extractLsb' 0 2 ∧
      (0x93#8).extractLsb' 2 6 = answer400.busRx2.extractLsb' 2 6 := by decide

/-- AcquireOverOneTick, ExchangeHandshake: each clause. -/
theorem witness_exchange_clauses :
    due.seq = .wait ∧ (flying.seq = .exch ∧ flying.inp.t.busDone = false) ∧
      ((sampleT answer400 flying).seq = .exch ∧ (sampleT answer400 flying).inp.t.busDone = true ∧
        (sampleT answer400 flying).inp.t.busErr = false) ∧
      ((sampleT failure5 flying).seq = .exch ∧ (sampleT failure5 flying).inp.t.busDone = true ∧
        (sampleT failure5 flying).inp.t.busErr = true) := by decide

/-- ResponseCompletesTheTick: with and without a tick in flight, with and without a deferred STOP. -/
theorem witness_response_clauses :
    flying.seq = .exch ∧ flying.stopPend = false ∧ stopping.seq = .exch ∧ stopping.stopPend = true ∧
      due.seq = .wait := by decide

/-- StartOperation: each clause. -/
theorem witness_start_clauses :
    (small.stopPend = false ∧ small.run = .idle ∧ small.inp.t.tbOk = true) ∧
      (let s := sampleT { TIn.quiet with tbOk := false } small
       s.stopPend = false ∧ s.run = .idle ∧ s.inp.t.tbOk = false) ∧
      (due.stopPend = false ∧ due.run = .running) ∧ stopping.stopPend = true := by decide

/-- StopOperation: each clause, and both cases of the second. -/
theorem witness_stop_clauses :
    (small.stopPend = false ∧ small.run = .idle) ∧
      (due.stopPend = false ∧ due.run = .running ∧ due.seq = .wait) ∧
      (let s := sampleT answer400 flying
       s.stopPend = false ∧ s.run = .running ∧ s.inp.t.busDone = true) ∧
      (flying.stopPend = false ∧ flying.run = .running ∧ flying.seq = .exch ∧ flying.inp.t.busDone = false) ∧
      stopping.stopPend = true := by decide

/-- StartAndStopAreIdempotent. -/
theorem witness_idempotent : (due.run = .running ∧ due.stopPend = false) ∧ small.run = .idle := by decide

/-- TickFires: exactly at the deadline, and with a START presented. -/
theorem witness_tick_fires :
    due.run = .running ∧ due.seq = .wait ∧ reached due.cfg.tw due.now due.deadline = true ∧
      ¬ (due.inp.t.ctlValid = true ∧ due.stopPend = false ∧ due.inp.t.ctlOp = 0#1) ∧
      ¬ ((TIn.commanding 1#1).ctlValid = true ∧ due.stopPend = false ∧ (TIn.commanding 1#1).ctlOp = 0#1) := by decide

/-- TickCompletesWithSample. -/
theorem witness_tick_completes :
    let s := sampleT answer400 flying
    s.seq = .exch ∧ s.inp.t.busDone = true ∧ s.inp.t.busErr = false := by decide

/-- FailedTickWritesNothing. -/
theorem witness_tick_fails :
    let s := sampleT failure5 flying
    s.seq = .exch ∧ s.inp.t.busDone = true ∧ s.inp.t.busErr = true := by decide

/-- TickWaits: for its answer, while Idle, and one edge before its deadline (SCH-6). -/
theorem witness_tick_waits :
    (flying.seq = .exch ∧ flying.inp.t.busDone = false) ∧ (small.seq = .wait ∧ small.run = .idle) ∧
      (due.seq = .wait ∧ reached due.cfg.tw 109 due.deadline = false) := by decide

/-- WriteOperation, RotationLaw, StoringOperationsFrame: the last slot of a ring with content. -/
theorem witness_write :
    let s : State := { small with pos := 3, posGray := 2, mem := [(0, 255), (1, 1), (2, 100)] }
    s.pos < s.cfg.slots ∧ Memory.wf s.cfg.memInit s.cfg.slots s.mem = true ∧
      (∃ t, exec (.write 0x64) s = .next t) ∧ storing (.write 0x64) = true := by
  exact ⟨by decide, by decide, ⟨_, rfl⟩, by decide⟩

/-- StoringOperationsFrame: the other two storing operations. -/
theorem witness_storing_tick :
    (∃ t, exec .tick (sampleT answer400 flying) = .next t) ∧ (∃ t, exec (.rspAcq 0 0 1 0x90) flying = .next t) ∧
      Memory.wf flying.cfg.memInit flying.cfg.slots flying.mem = true ∧ storing .tick = true ∧
      storing (.rspAcq 0 0 1 0x90) = true := by
  exact ⟨⟨_, rfl⟩, ⟨_, rfl⟩, by decide, by decide, by decide⟩

/-- RotationLaw: the first of five writes to a ring of four is out of the last lap, the second is in it; slot 3 is not
reached by two writes from slot 0. -/
theorem witness_rotation :
    let vs : List Sample := [1, 2, 3, 4, 5]
    vs[1]? = some 2 ∧ vs.length ≤ 1 + small.cfg.slots ∧ ¬ vs.length ≤ 0 + small.cfg.slots ∧
      3 < small.cfg.slots ∧ (∀ j, j < 2 → 3 ≠ (small.pos + j) % small.cfg.slots) ∧
      (let s := sampleT failure5 flying
       s.pos < s.cfg.slots ∧ Memory.wf s.cfg.memInit s.cfg.slots s.mem = true ∧ s.seq = .exch ∧
        s.inp.t.busDone = true ∧ s.inp.t.busErr = true) := by decide

/-- RdOperation: the last slot, an address past the wires, and a racing write. -/
theorem witness_rd_clauses :
    small.inp.race ≠ some (3 % 2 ^ small.cfg.aw) ∧ small.inp.race ≠ some (4 % 2 ^ small.cfg.aw) ∧
      (sampleC (some 3) CIn.quiet small).inp.race = some (7 % 2 ^ small.cfg.aw) := by decide

/-- SyncOperation (both parts), CursorOperation: codes held and a code not held. -/
theorem witness_held_codes :
    let s : State := { small with pos := 1, posGray := 1, grayHeld := [0, 1] }
    s.grayHeld ≠ [] ∧ 0 ∈ s.grayHeld ∧ 1 ∈ s.grayHeld ∧ 3 ∉ s.grayHeld ∧ small.grayHeld = [small.posGray] := by decide

/-- GrayCodeIsInvertible, GrayCodeChangesOneBit, GrayToBinaryBitByBit: the wrap at 13 bits and the narrowest ring. -/
theorem witness_gray :
    (8191 < 2 ^ 13 ∧ 1 ≤ 13 ∧ 12 + 1 = 13 ∧ 11 + 1 < 13) ∧ (1 < 2 ^ 1 ∧ 1 ≤ 1 ∧ 0 + 1 = 1) := by decide

/-- ReachedAcrossTheWrap: the last time that counts as late and the first that does not, at `TW = 8`. -/
theorem witness_reached :
    1 ≤ 8 ∧ 250 < 2 ^ 8 ∧ 127 < 2 ^ (8 - 1) ∧ ¬ 128 < 2 ^ (8 - 1) ∧ 128 ≤ 2 ^ (8 - 1) := by decide

/-- NonStoringOperationsFrame: an operation of each shape answers. -/
theorem witness_non_storing :
    (storing .start = false ∧ ∃ t, exec .start small = .next t) ∧
      (storing .stop = false ∧ ∃ t, exec .stop flying = .next t) ∧
      (storing .respOk = false ∧ ∃ t, exec .respOk small = .next t) ∧
      (storing .exchange = false ∧ ∃ t, exec .exchange small = .next t) ∧
      (storing (.cursor 0) = false ∧ ∃ t, exec (.cursor 0) small = .next t) ∧
      (storing (.rd 3) = false ∧ ∃ t, exec (.rd 3) small = .next t) := by
  exact ⟨⟨by decide, _, rfl⟩, ⟨by decide, _, rfl⟩, ⟨by decide, _, rfl⟩, ⟨by decide, _, rfl⟩, ⟨by decide, _, rfl⟩,
    ⟨by decide, _, rfl⟩⟩

/-- StepRunsTheDecodedCommand. -/
theorem witness_step_command :
    let t := TIn.commanding 1#1
    let s : State := { small with schedule := [.clkT t] }
    s.cfg.wf = true ∧ s.schedule = .clkT t :: [] ∧ t.ctlValid = true ∧ s.stopPend = false ∧
      complete (sampleT t s) = false ∧ fire (sampleT t s) = false ∧
      decode s.cfg.aw { format := .ctl, nbits := 1, value := t.ctlOp.toNat } = .ok .start := by
  exact ⟨by decide, rfl, by decide, by decide, by decide, by decide, rfl⟩

/-- StepRunsTheDecodedResponse. -/
theorem witness_step_response :
    let s : State := { flying with schedule := [.clkT answer400] }
    s.cfg.wf = true ∧ s.schedule = .clkT answer400 :: [] ∧ s.seq = .exch ∧ answer400.busDone = true ∧
      answer400.busErr = false ∧ answer400.ctlValid = false ∧
      decodeBytes .busrx [answer400.busRx0, answer400.busRx1, answer400.busRx2] = .ok (.rspAcq 0 0 1 0x90) := by
  exact ⟨by decide, rfl, by decide, by decide, by decide, by decide, rfl⟩

/-- StepRunsTheTick: a due tick, and a failed exchange. -/
theorem witness_step_tick :
    (let s : State := { due with schedule := [.clkT TIn.quiet] }
     s.cfg.wf = true ∧ s.schedule = .clkT TIn.quiet :: [] ∧ TIn.quiet.ctlValid = false ∧
      fire (sampleT TIn.quiet s) = true) ∧
    (let s : State := { flying with schedule := [.clkT failure5] }
     s.cfg.wf = true ∧ s.schedule = .clkT failure5 :: [] ∧ failure5.ctlValid = false ∧ s.seq = .exch ∧
      failure5.busDone = true ∧ failure5.busErr = true) := by decide

/-- StepRunsTheConsumerEdge, with and without a sample of `pos_c`. -/
theorem witness_step_consumer :
    (let s : State := { small with schedule := [.clkC CIn.quiet] }
     s.cfg.wf = true ∧ s.schedule = .clkC CIn.quiet :: []) ∧
    ({ CIn.quiet with readPos := true } : CIn).readPos = true := by decide

/-- StepRunsTheConsumerEdge, second part: the newer of two codes held. -/
theorem witness_step_cursor :
    let c : CIn := { CIn.quiet with pick := 1 }
    let s : State := { small with pos := 1, posGray := 1, grayHeld := [0, 1], schedule := [.clkC c] }
    s.cfg.wf = true ∧ s.schedule = .clkC c :: [] ∧ c.readPos = false ∧ s.grayHeld ≠ [] ∧
      decode s.cfg.aw { format := .gray, nbits := s.cfg.aw, value := drawnCode (sampleC none c s) } =
        .ok (.cursor 1) := by
  exact ⟨by decide, rfl, by decide, by decide, rfl⟩

/-- StateTransitions: a state of each of the four pairs, each with an edge that answers. -/
theorem witness_transitions :
    (small.run = .idle ∧ small.seq = .wait ∧ Consistent small ∧ ∃ u, clkTEdge (TIn.commanding 1#1) small = .next u) ∧
      (due.run = .running ∧ due.seq = .wait ∧ Consistent due ∧ ∃ u, clkTEdge TIn.quiet due = .next u) ∧
      (flying.run = .running ∧ flying.seq = .exch ∧ Consistent flying ∧ ∃ u, clkTEdge answer400 flying = .next u) ∧
      (stopping.run = .idle ∧ stopping.seq = .exch ∧ Consistent stopping ∧
        ∃ u, clkTEdge answer400 stopping = .next u) := by
  exact ⟨⟨rfl, rfl, witness_inv_small.consistent, _, rfl⟩, ⟨rfl, rfl, witness_inv_due.consistent, _, rfl⟩,
    ⟨rfl, rfl, witness_inv_flying.consistent, _, rfl⟩, ⟨rfl, rfl, witness_inv_stopping.consistent, _, rfl⟩⟩

/-- OnlyAFailedStartIsAnsweredWithOne: an edge of each kind answers. -/
theorem witness_response_edge :
    (∃ u, clkTEdge { TIn.commanding 1#1 with tbOk := false } small = .next u ∧ u.ctlRespValid = true ∧
      u.ctlErr = 1#1) ∧
    (∃ u, clkTEdge (TIn.commanding 0#1) small = .next u ∧ u.ctlErr = 0#1) := by
  exact ⟨⟨_, rfl, by decide, by decide⟩, ⟨_, rfl, by decide⟩⟩

/-- RequestPulseExactlyAfterAFire: an edge that fires and one that does not. -/
theorem witness_request_pulse :
    (∃ u, clkTEdge TIn.quiet due = .next u ∧ u.busReq = true) ∧
      (∃ u, clkTEdge TIn.quiet small = .next u ∧ u.busReq = false) := by
  exact ⟨⟨_, rfl, by decide⟩, ⟨_, rfl, by decide⟩⟩

/-- ConsumerEdgeLeavesTheTickDomain. -/
theorem witness_consumer_edge : ∃ u, clkCEdge none CIn.quiet flying = .next u := ⟨_, rfl⟩

/-- TickDomainIgnoresTheConsumer: two machines that differ in the consumer domain. -/
theorem witness_same_tick_domain :
    SameTickDomain flying { flying with sync1 := 1, sync2 := 3, rdData := 9 } ∧
      (∃ u, clkTEdge answer400 flying = .next u) ∧
      (∃ u, clkTEdge answer400 { flying with sync1 := 1, sync2 := 3, rdData := 9 } = .next u) := by
  exact ⟨⟨rfl, rfl, rfl, rfl, rfl, rfl, rfl, rfl, rfl, rfl, rfl, rfl⟩, ⟨_, rfl⟩, ⟨_, rfl⟩⟩

/-- CollidingReadReturnsAnyByte: the last slot, addressed past the wires. -/
theorem witness_collision :
    let c : CIn := { CIn.quiet with rdAddr := 7, junk := 0xA5 }
    let s : State := { flying with pos := 3, posGray := 2, grayHeld := [2], schedule := [.both answer400 c false] }
    s.cfg.wf = true ∧ s.pos < s.cfg.slots ∧ Memory.wf s.cfg.memInit s.cfg.slots s.mem = true ∧
      s.schedule = .both answer400 c false :: [] ∧ s.seq = .exch ∧ answer400.busDone = true ∧
      answer400.busErr = false ∧ c.rdAddr % 2 ^ s.cfg.aw = s.pos := by decide

/-- StepKeepsTheInvariant, NoErrorHaltsTheBlock: a step from a state of the invariant. -/
theorem witness_invariant_step :
    ∃ s t, Inv s ∧ s.cfg.wf = true ∧ step s = .next t ∧ t.busReq = true :=
  ⟨{ due with schedule := [.clkT TIn.quiet] }, _, inv_with_schedule witness_inv_due _, by decide, rfl, by decide⟩

/-- ResetHasTheInvariant: a configuration other than the default one. -/
theorem witness_other_config : ({ smallConfig with aw := 1, tw := 3, period := 1 } : Config).wf = true := by decide

/-- ResetEvent: a reset with a tick in flight. -/
theorem witness_reset_event :
    let s : State := { flying with schedule := [.reset] }
    s.cfg.wf = true ∧ s.schedule = .reset :: [] ∧ s.seq = .exch := by decide

/-- BadConfigurationIsRefused: both sides occur. -/
theorem witness_bad_configuration :
    (¬ (1 ≤ ({ small with cfg := { smallConfig with aw := 0 } } : State).cfg.aw)) ∧ small.cfg.wf = true := by decide

/-- StopAnswerLeavesTheBlockQuiet: answered at once, at the completion edge, and deferred. -/
theorem witness_stop_answer :
    (Consistent due ∧ stopAnswered (sampleT (TIn.commanding 0#1) due) = true ∧
      ∃ u, clkTEdge (TIn.commanding 0#1) due = .next u) ∧
    (Consistent flying ∧ stopAnswered (sampleT { answer400 with ctlValid := true } flying) = true ∧
      ∃ u, clkTEdge { answer400 with ctlValid := true } flying = .next u) ∧
    (Consistent stopping ∧ stopAnswered (sampleT answer400 stopping) = true ∧
      ∃ u, clkTEdge answer400 stopping = .next u) := by
  exact ⟨⟨witness_inv_due.consistent, by decide, _, rfl⟩, ⟨witness_inv_flying.consistent, by decide, _, rfl⟩,
    ⟨witness_inv_stopping.consistent, by decide, _, rfl⟩⟩

/-- StopGuarantee: an answer at once and a deferred one, then a stray answer, a second STOP, a `clk_c` edge and an
unordered pair. -/
theorem witness_stop_guarantee :
    let es : List Event :=
      [.clkT answer400, .clkT (TIn.commanding 0#1), .clkC CIn.quiet, .both TIn.quiet CIn.quiet true]
    (∀ e ∈ es, noStart e = true) ∧
      (Inv { due with schedule := .clkT (TIn.commanding 0#1) :: (es ++ [.reset]) } ∧
        tickInputs (.clkT (TIn.commanding 0#1)) = some (TIn.commanding 0#1) ∧
        stopAnswered (sampleT (TIn.commanding 0#1) due) = true) ∧
      (Inv { stopping with schedule := .both answer400 CIn.quiet false :: (es ++ []) } ∧
        tickInputs (.both answer400 CIn.quiet false) = some answer400 ∧
        stopAnswered (sampleT answer400 stopping) = true) := by
  exact ⟨by decide, ⟨inv_with_schedule witness_inv_due _, by decide, by decide⟩,
    ⟨inv_with_schedule witness_inv_stopping _, by decide, by decide⟩⟩

/-- A run with an edge of `clk_c` before, one paired with, and one after the edges of `clk_t` whose inputs are given. -/
def interleaved : List TIn → List Event
  | [] => [.clkC CIn.quiet]
  | t :: ts => .clkC CIn.quiet :: .both t CIn.quiet false :: ts.map Event.clkT ++ [.clkC CIn.quiet]

/-- The edges of `clk_t` of a tick of latency `latency` and what follows it, a START presented at the second. -/
def tickEdges (n latency : Nat) : List TIn :=
  (List.range n).map fun j =>
    { (if j = latency then answer400 else TIn.quiet) with ctlValid := decide (j = 1), ctlOp := 1#1 }

/-- FirstTickOnePeriodAfterStart: `P = 10` edges of `clk_t` with edges of `clk_c` among them, a second START too. -/
theorem witness_first_tick :
    let t := TIn.commanding 1#1
    let ts := TIn.commanding 1#1 :: List.replicate 8 TIn.quiet
    let es := interleaved (t :: ts)
    Inv { small with schedule := es ++ [] } ∧ small.run = .idle ∧ small.seq = .wait ∧ small.stopPend = false ∧
      t.ctlValid = true ∧ t.ctlOp = 1#1 ∧ t.tbOk = true ∧ (∀ e ∈ es, noReset e = true) ∧ tickTrain es = t :: ts ∧
      (t :: ts).length = small.cfg.period ∧ ∀ t' ∈ ts, noStop t' = true := by
  exact ⟨inv_with_schedule witness_inv_small _, by decide, by decide, by decide, by decide, by decide, by decide,
    by decide, by decide, by decide, by decide⟩

/-- A statement about every entry of a list, read off its positions. -/
theorem forall_getElem_of_lt {α : Type} {l : List α} {p : Nat → α → Prop}
    (h : ∀ j (hj : j < l.length), p j l[j]) : ∀ j a, l[j]? = some a → p j a := by
  intro j a ha
  obtain ⟨hj, rfl⟩ := List.getElem?_eq_some_iff.mp ha
  exact h j hj

/-- FireEdgesRecurrence: on time with a short latency (next fire 10 edges on), and an overrun (14 edges on). -/
theorem witness_fire_edges :
    (let es := interleaved (tickEdges 10 2)
     (∀ e ∈ es, noReset e = true) ∧ (tickTrain es).length = max (2 + 1) (due.cfg.period - lateness due) ∧
      lateness due + (tickTrain es).length < due.cfg.period + 2 ^ (due.cfg.tw - 1) ∧
      ∀ j t, (tickTrain es)[j]? = some t → answersWhen (decide (j = 2)) t = true) ∧
    (let es := interleaved (tickEdges 14 13)
     (tickTrain es).length = max (13 + 1) (due.cfg.period - lateness due) ∧
      ∀ j t, (tickTrain es)[j]? = some t → answersWhen (decide (j = 13)) t = true) ∧
    due.run = .running ∧ due.seq = .wait ∧ reached due.cfg.tw due.now due.deadline = true := by
  exact ⟨⟨by decide, by decide, by decide, forall_getElem_of_lt (by decide)⟩,
    ⟨by decide, forall_getElem_of_lt (by decide)⟩, by decide, by decide, by decide⟩

/-- Its state, with any schedule, has the invariant. -/
theorem witness_fire_edges_inv (es : List Event) : Inv { due with schedule := es } :=
  inv_with_schedule witness_inv_due es

/-- NoDrift: two ticks of latencies 2 and 9, the largest below `P = 10`. -/
theorem witness_no_drift :
    let es := interleaved (tickEdges 10 2) ++ interleaved (tickEdges 10 9)
    due.run = .running ∧ due.seq = .wait ∧ due.now = due.deadline ∧ (∀ e ∈ es, noReset e = true) ∧
      (tickTrain es).length = [2, 9].length * due.cfg.period ∧ (∀ L ∈ [2, 9], 1 ≤ L ∧ L < due.cfg.period) ∧
      (∀ k L j t, [2, 9][k]? = some L → j < due.cfg.period → (tickTrain es)[k * due.cfg.period + j]? = some t →
        answersWhen (decide (j = L)) t = true) := by
  refine ⟨by decide, by decide, by decide, by decide, by decide, by decide, ?_⟩
  have first : ∀ j, j < 10 → ∀ t ∈ (tickEdges 10 2)[j]?, answersWhen (decide (j = 2)) t = true := by decide
  have second : ∀ j, j < 10 → ∀ t ∈ (tickEdges 10 9)[j]?, answersWhen (decide (j = 9)) t = true := by decide
  have first_at : ∀ j, j < 10 →
      (tickTrain (interleaved (tickEdges 10 2) ++ interleaved (tickEdges 10 9)))[0 * due.cfg.period + j]? =
        (tickEdges 10 2)[j]? := by decide
  have second_at : ∀ j, j < 10 →
      (tickTrain (interleaved (tickEdges 10 2) ++ interleaved (tickEdges 10 9)))[1 * due.cfg.period + j]? =
        (tickEdges 10 9)[j]? := by decide
  intro k L j t h hj ht
  have hj : j < 10 := hj
  match k, h with
  | 0, h =>
    obtain rfl : 2 = L := by simpa using h
    exact first j hj t ((first_at j hj).symm.trans ht)
  | 1, h =>
    obtain rfl : 9 = L := by simpa using h
    exact second j hj t ((second_at j hj).symm.trans ht)
  | k + 2, h => simp at h

/-- UnansweredTickStaysInFlight: edges of both clocks and a pair, a START that is not accepted among them. -/
theorem witness_unanswered :
    let es : List Event :=
      [.clkT TIn.quiet, .clkC CIn.quiet, .both TIn.quiet CIn.quiet true, .clkT (TIn.commanding 1#1)]
    Inv { stopping with schedule := es } ∧ stopping.seq = .exch ∧ stopping.stopPend = true ∧
      stopping.ctlRespValid = false ∧ (∀ e ∈ es, noReset e = true) ∧ ∀ t ∈ tickTrain es, t.busDone = false := by
  exact ⟨inv_with_schedule witness_inv_stopping _, by decide, by decide, by decide, by decide, by decide⟩

/-- CrossingKeepsTheOrder: two writes, the first one captured by `sync1`, an edge of `clk_c` to come. -/
theorem witness_crossing :
    let s : State :=
      { small with pos := 2, posGray := 3, grayHeld := [1, 3], sync1 := 1, schedule := [.clkC CIn.quiet] }
    s.cfg.wf = true ∧ Crossing s 1 2 1 0 ∧ nextEvent s ≠ .reset ∧ ∃ t, step s = .next t := by
  exact ⟨by decide, ⟨by decide, by decide, by decide, by decide, by decide, by decide, by decide, by decide⟩,
    by decide, _, rfl⟩

/-- The state of the next witness: a write not yet seen by the consumer, a tick in flight. -/
def unsettled : State := { flying with pos := 1, posGray := 1, grayHeld := [0, 1] }

/-- Its events: a failed completion, a stray answer paired with an edge of `clk_c`, two more of those. -/
def settling : List Event :=
  [.clkT failure5, .both answer400 CIn.quiet true, .clkC CIn.quiet, .clkC CIn.quiet]

/-- CursorSettlesInThreeEdges: answers arrive on the way, and none is a WRITE. -/
theorem witness_cursor_settles :
    let s : State := { unsettled with schedule := settling ++ [] }
    Inv s ∧ s.schedule = settling ++ [] ∧ NoWriteOnRun s settling ∧ 3 ≤ settling.countP hasConsumerEdge := by
  refine ⟨⟨by decide, ⟨by decide, by decide, by decide, by decide, by decide, by decide, by decide⟩,
    ⟨by decide, by decide, by decide, by decide, ⟨0, by decide, rfl⟩, ⟨0, by decide, rfl⟩, by decide, ?_⟩⟩, rfl,
    ?_, by decide⟩
  · intro g hg
    have : g = 0 ∨ g = 1 := by simpa [unsettled] using hg
    rcases this with rfl | rfl
    · exact ⟨0, by decide, rfl⟩
    · exact ⟨1, by decide, rfl⟩
  · intro n e v he hv
    match n, he with
    | 0, he => obtain rfl := Option.some.inj he; obtain rfl := Host.Outcome.next.inj hv; decide
    | 1, he => obtain rfl := Option.some.inj he; obtain rfl := Host.Outcome.next.inj hv; decide
    | 2, he => obtain rfl := Option.some.inj he; exact ⟨rfl, rfl⟩
    | 3, he => obtain rfl := Option.some.inj he; exact ⟨rfl, rfl⟩

/-- ConsumerPollArithmetic: the last `lastPos`, a whole lap of writes, and the largest count. -/
theorem witness_poll :
    3 < smallConfig.slots ∧ 1 < smallConfig.slots ∧ 2 < Consumer.avail smallConfig 1 2 ∧
      Consumer.avail smallConfig ((3 + 4) % 4) 3 = 0 := by decide

/-- A ring that holds two samples the consumer has been shown and has not copied; the system at rest. -/
def fresh : System :=
  { block := { small with pos := 2, posGray := 3, grayHeld := [3], mem := [(0, 7), (1, 9)], sync1 := 3, sync2 := 3 }
    consumer := Consumer.initial }

/-- The same with a poll of both samples begun and the first one copied. -/
def polling : System := { fresh with consumer := { lastPos := 0, poll := some { p := 2, out := [7] }, copied := [] } }

/-- P5, steps 6 to 6b: POS, and RD of slot 0 at the next edge; here two samples are new, so the poll goes on. -/
theorem test_poll_begins :
    (match fresh.edge (.clkC { CIn.quiet with readPos := true }) true with
      | .next z => some z.consumer | .fault _ => none | .refused _ => none) =
      some { lastPos := 0, poll := some { p := 2, out := [7] }, copied := [] } := by decide

/-- P5, steps 12 and 12a: the last RD of a poll, and `lastPos = p`. -/
theorem test_poll_ends :
    (match polling.edge (.clkC CIn.quiet) true with
      | .next z => some z.consumer | .fault _ => none | .refused _ => none) =
      some { lastPos := 2, poll := none, copied := [7, 9] } := by decide

/-- Their blocks have the invariant. -/
theorem witness_inv_fresh : Inv fresh.block where
  cfg := by decide
  widths := by constructor <;> decide
  consistent := by
    refine ⟨by decide, by decide, by decide, by decide, ⟨2, by decide, rfl⟩, ⟨2, by decide, rfl⟩, by decide, ?_⟩
    intro g hg
    exact ⟨2, by decide, List.mem_singleton.mp hg⟩

/-- PollCopiesOneSlotPerEdge: a poll to begin, and a poll with one read to go, on an edge and on an unordered pair. -/
theorem witness_poll_edges :
    Inv fresh.block ∧ Inv polling.block ∧ fresh.consumer.poll = none ∧
      consumerInputs (.clkC { CIn.quiet with readPos := true }) = some { CIn.quiet with readPos := true } ∧
      (polling.consumer.sampled polling.block (.clkC CIn.quiet)).poll = some { p := 2, out := [7] } ∧
      ([7] : List Byte).length < Consumer.avail polling.block.cfg 2 polling.consumer.lastPos ∧
      consumerInputs (.both answer400 CIn.quiet true) = some CIn.quiet ∧ noReset (.clkC CIn.quiet) = true := by
  exact ⟨witness_inv_fresh, witness_inv_fresh, by decide, by decide, by decide, by decide, by decide, by decide⟩

/-- SafeConsumerLosesNothing: the second read of a poll of two samples, with two written in all. -/
theorem witness_safe_consumer :
    Inv polling.block ∧ LossFree polling [7, 9] 2 2 2 0 ∧ noReset (.clkC CIn.quiet) = true ∧
      SafeMove polling (.clkC CIn.quiet) true ([7, 9] ++ writtenBy polling.block (.clkC CIn.quiet)).length 0 2 ∧
      ∃ z, polling.edge (.clkC CIn.quiet) true = .next z ∧ z.consumer.copied = [7, 9] := by
  refine ⟨witness_inv_fresh,
    ⟨⟨by decide, by decide, by decide, by decide, by decide, by decide, by decide, by decide⟩, ?_, by decide,
      by decide, by decide, ?_⟩, by decide, ⟨by decide, ?_⟩, _, rfl, by decide⟩
  · exact forall_getElem_of_lt (by decide)
  · intro q hq
    obtain rfl := Option.some.inj hq
    exact ⟨2, by decide, by decide, by decide, by decide, by decide⟩
  · intro q hq _
    obtain rfl := Option.some.inj hq
    decide

/-- SafeMove at the bound of its pace, on a ring of four: a poll with `avail = 2` may make its second read with five
writes made in all, and not with six. -/
theorem witness_safe_pace :
    SafeMove polling (.clkC CIn.quiet) true 5 0 2 ∧ ¬ SafeMove polling (.clkC CIn.quiet) true 6 0 2 := by
  refine ⟨⟨by decide, fun q hq _ => ?_⟩, fun h => absurd (h.pace _ rfl (by decide)) (by decide)⟩
  obtain rfl := Option.some.inj hq
  decide

/-- SafeMove at the bound of its cadence: a poll may begin three writes after the last one's `p`, and not four. -/
theorem witness_safe_cadence :
    SafeMove fresh (.clkC { CIn.quiet with readPos := true }) false 4 0 3 ∧
      ¬ SafeMove fresh (.clkC { CIn.quiet with readPos := true }) false 4 0 4 :=
  ⟨⟨fun _ _ _ _ => by decide, fun _ _ h => absurd h (by decide)⟩,
    fun h => absurd (h.cadence _ rfl rfl rfl) (by decide)⟩

end Sys2Proof.Tests
end

-- ==== Proofs of 00_scope: the configuration, the helper functions of R15, the tick domain ====
section
/-! The statements drawn from 00_scope. First what the definitions they speak of do, in the order of the model, then
each statement from those lemmas. -/

namespace Sys2Proof

/-- The check of a configuration is the constraints of 00_scope R12. -/
theorem Config.wf_iff (c : Config) :
    c.wf = true ↔ 1 ≤ c.aw ∧ 1 ≤ c.period ∧ 2 ≤ c.tw ∧ c.period < 2 ^ (c.tw - 2) := by
  simp [Config.wf, and_assoc]

end Sys2Proof

namespace Sys2Proof.Machine

open Sys2Proof.Safety

/-! ### The Gray code (00_scope R15) -/

theorem gray2bin_succ (k g : Nat) : gray2bin (k + 1) g = g ^^^ gray2bin k (g >>> 1) := rfl

/-- A code of `k + 1` bits without its lowest bit has `k` bits. -/
theorem shiftRight_one_lt {k g : Nat} (h : g < 2 ^ (k + 1)) : g >>> 1 < 2 ^ k := by
  rw [Nat.shiftRight_eq_div_pow]
  omega

/-- The index of a code has the code's width. -/
theorem gray2bin_lt {aw g : Nat} (h : g < 2 ^ aw) : gray2bin aw g < 2 ^ aw := by
  induction aw generalizing g with
  | zero => simp [gray2bin]
  | succ k ih =>
    have hrest : gray2bin k (g >>> 1) < 2 ^ (k + 1) :=
      (ih (shiftRight_one_lt h)).trans (Nat.pow_lt_pow_right (by omega) k.lt_succ_self)
    exact Nat.xor_lt_two_pow h hrest

/-- Dropping the lowest bit of the index is decoding the code without its lowest bit: no bit of the index depends on a
bit of the code below it. -/
theorem gray2bin_shiftRight_one {k g : Nat} (h : g < 2 ^ (k + 1)) :
    gray2bin (k + 1) g >>> 1 = gray2bin k (g >>> 1) := by
  induction k generalizing g with
  | zero =>
    have hzero : g >>> 1 = 0 := Nat.lt_one_iff.mp (shiftRight_one_lt h)
    simp [gray2bin, hzero]
  | succ k ih =>
    calc gray2bin (k + 2) g >>> 1
        = g >>> 1 ^^^ gray2bin (k + 1) (g >>> 1) >>> 1 := by rw [gray2bin_succ, Nat.shiftRight_xor_distrib]
      _ = g >>> 1 ^^^ gray2bin k (g >>> 1 >>> 1) := by rw [ih (shiftRight_one_lt h)]

/-- The running exclusive-or from the top, all bits at once. -/
theorem gray2bin_eq_xor_shiftRight {aw g : Nat} (h : g < 2 ^ aw) :
    gray2bin aw g = g ^^^ gray2bin aw g >>> 1 := by
  cases aw with
  | zero =>
    have hzero : g = 0 := Nat.lt_one_iff.mp h
    simp [gray2bin, hzero]
  | succ k => rw [gray2bin_shiftRight_one h, gray2bin_succ]

theorem testBit_gray2bin {aw g : Nat} (h : g < 2 ^ aw) (i : Nat) :
    (gray2bin aw g).testBit i = Bool.xor (g.testBit i) ((gray2bin aw g).testBit (i + 1)) := by
  conv_lhs => rw [gray2bin_eq_xor_shiftRight h]
  rw [Nat.testBit_xor, Nat.testBit_shiftRight, Nat.add_comm 1 i]

/-- Settles O28: one equation for every bit, and the bit above the top one is 0. -/
theorem grayToBinaryBitByBit : Obligations.GrayToBinaryBitByBit := by
  intro aw g hg
  refine ⟨fun i hi => ?_, fun i _ => testBit_gray2bin hg i⟩
  have habove : (gray2bin aw g).testBit (i + 1) = false := by
    rw [hi]
    exact Nat.testBit_lt_two_pow (gray2bin_lt hg)
  rw [testBit_gray2bin hg i, habove, Bool.xor_false]

/-! ### The comparison of time (00_scope R15) -/

/-- How long after `d` the time `m` cycles after `d` is, the wrap of the counter included. -/
theorem timeSince_add (tw d m : Nat) : timeSince tw ((d + m) % 2 ^ tw) d = m % 2 ^ tw := by
  have hd : d % 2 ^ tw < 2 ^ tw := Nat.mod_lt _ (Nat.two_pow_pos tw)
  calc timeSince tw ((d + m) % 2 ^ tw) d
      = (d % 2 ^ tw + m + (2 ^ tw - d % 2 ^ tw)) % 2 ^ tw := by
        rw [timeSince, Nat.mod_add_mod, Nat.add_assoc, ← Nat.mod_add_mod, ← Nat.add_assoc]
    _ = (m + 2 ^ tw) % 2 ^ tw := by congr 1; omega
    _ = m % 2 ^ tw := Nat.add_mod_right _ _

/-- Going `m` cycles back is going `2 ^ TW - m` cycles on. -/
theorem timeSince_before {tw d m : Nat} (hd : d < 2 ^ tw) (hm : m ≤ 2 ^ tw) :
    timeSince tw d ((d + m) % 2 ^ tw) = (2 ^ tw - m) % 2 ^ tw := by
  have hback : ((d + m) % 2 ^ tw + (2 ^ tw - m)) % 2 ^ tw = d := by
    rw [Nat.mod_add_mod, show d + m + (2 ^ tw - m) = d + 2 ^ tw by omega, Nat.add_mod_right, Nat.mod_eq_of_lt hd]
  simpa only [hback] using timeSince_add tw ((d + m) % 2 ^ tw) (2 ^ tw - m)

/-- Settles O29: the differences `m` and `2 ^ TW - m` lie on the two sides of half the range. -/
theorem reachedAcrossTheWrap : Obligations.ReachedAcrossTheWrap := by
  intro tw d m htw hd
  have hhalf : 2 ^ tw = 2 * 2 ^ (tw - 1) := (mul_pow_sub_one (by omega) 2).symm
  constructor
  · intro hm
    rw [reached, timeSince_add, Nat.mod_eq_of_lt (by omega), decide_eq_true_iff]
    exact hm
  · intro hpos hm
    rw [reached, timeSince_before hd (by omega), Nat.mod_eq_of_lt (by omega), decide_eq_false_iff_not]
    omega

/-! ### The tick domain alone (00_scope R4) -/

/-- The machine with everything but the tick domain and its input ports at the reset value. Two machines agree on the
tick domain and its inputs when their tick views are equal (`tickView_eq_iff`). -/
def tickView (s : State) : State :=
  { s with sync1 := 0, sync2 := 0, rdData := 0, grayHeld := [0],
           inp := { t := s.inp.t, c := CIn.quiet, race := none }, result := .none, schedule := [], edges := 0 }

theorem tickView_eq_iff {s s' : State} :
    tickView s = tickView s' ↔ SameTickDomain s s' ∧ s'.inp.t = s.inp.t := by
  simp [tickView, SameTickDomain, and_assoc, eq_comm]

section
variable {p p' s s' : State}

/-- What reads the tick view only is equal where the tick views are. -/
theorem eq_of_tickView {α : Type} {f : State → α} (hf : ∀ s, f s = f (tickView s))
    (h : tickView s = tickView s') : f s = f s' := by
  rw [hf s, hf s', h]

/-- An update whose effect on the tick view is a function of the tick view keeps tick views equal. -/
theorem tickView_congr {f : State → State} (hf : ∀ s, tickView (f s) = tickView (f (tickView s)))
    (h : tickView s = tickView s') : tickView (f s) = tickView (f s') :=
  eq_of_tickView (f := fun s => tickView (f s)) hf h

theorem tickView_completeTick (a : Answer) (s : State) :
    tickView (completeTick a s) = tickView (completeTick a (tickView s)) := by
  rw [completeTick_eq, completeTick_eq]
  cases a <;> rfl

theorem tickView_startAccepted (s : State) :
    tickView (startAccepted s) = tickView (startAccepted (tickView s)) := by
  have hrun : (tickView s).run = s.run := rfl
  have htb : (tickView s).inp.t.tbOk = s.inp.t.tbOk := rfl
  rw [startAccepted, startAccepted, hrun, htb]
  cases s.run with
  | running => rfl
  | idle => cases s.inp.t.tbOk <;> rfl

theorem tickView_stopAccepted (s : State) :
    tickView (stopAccepted s) = tickView (stopAccepted (tickView s)) := by
  have hrun : (tickView s).run = s.run := rfl
  have hfl : inFlight (tickView s) = inFlight s := rfl
  rw [stopAccepted, stopAccepted, hrun, hfl]
  cases s.run with
  | idle => rfl
  | running => cases inFlight s <;> rfl

/-! Each part of an edge of `clk_t` keeps tick views equal. -/

theorem completionPart_congr (hp : tickView p = tickView p') (hs : tickView s = tickView s') :
    tickView (completionPart p s) = tickView (completionPart p' s') := by
  unfold completionPart
  rw [eq_of_tickView (f := complete) (fun _ => rfl) hp, eq_of_tickView (f := answerOf) (fun _ => rfl) hp]
  split
  · exact tickView_congr (tickView_completeTick _) hs
  · exact hs

theorem commandPart_congr (hp : tickView p = tickView p') (hs : tickView s = tickView s') :
    tickView (commandPart p s) = tickView (commandPart p' s') := by
  unfold commandPart
  rw [eq_of_tickView (f := isStart) (fun _ => rfl) hp, eq_of_tickView (f := isStop) (fun _ => rfl) hp]
  split
  · exact tickView_congr tickView_startAccepted hs
  · split
    · exact tickView_congr tickView_stopAccepted hs
    · exact hs

theorem firingPart_congr (hp : tickView p = tickView p') (hs : tickView s = tickView s') :
    tickView (firingPart p s) = tickView (firingPart p' s') := by
  unfold firingPart
  rw [eq_of_tickView (f := fire) (fun _ => rfl) hp]
  split
  · exact tickView_congr (f := enterTick) (fun _ => rfl) hs
  · exact hs

/-- An edge of `clk_t` is a function of the tick view: nothing of the consumer domain reaches it. -/
theorem clkTEdge_congr {t : TIn} {u u' : State} (h : tickView (sampleT t s) = tickView (sampleT t s'))
    (hu : clkTEdge t s = .next u) (hu' : clkTEdge t s' = .next u') : tickView u = tickView u' := by
  rw [clkTEdge_eq, Host.Outcome.next.injEq] at hu hu'
  subst hu hu'
  have hclear := tickView_congr (f := clearPulses) (fun _ => rfl) h
  have hparts := firingPart_congr h (commandPart_congr h (completionPart_congr h hclear))
  exact tickView_congr (f := countTime) (fun _ => rfl) hparts

end

/-- Settles O42: the two machines have one tick view after the edge has sampled its inputs, and the edge keeps it so. -/
theorem tickDomainIgnoresTheConsumer : Obligations.TickDomainIgnoresTheConsumer := by
  intro s s' u u' t hsame hu hu'
  have hsampled : tickView (sampleT t s) = tickView (sampleT t s') := tickView_eq_iff.mpr ⟨hsame, rfl⟩
  exact (tickView_eq_iff.mp (clkTEdge_congr hsampled hu hu')).1

/-! ### What `step` refuses (00_scope R12) -/

/-- Every event answers a next state. -/
theorem runEvent_answers (e : Event) (s : State) : ∃ u, runEvent e s = .next u := by
  cases e with
  | clkT t => exact ⟨_, clkTEdge_eq t s⟩
  | clkC c => exact ⟨_, clkCEdge_eq none c s⟩
  | both t c tFirst =>
    cases tFirst with
    | true => exact ⟨_, by rw [runEvent, if_pos rfl, clkTEdge_eq, andThen_next, clkCEdge_eq]⟩
    | false => exact ⟨_, by rw [runEvent, if_neg Bool.false_ne_true, clkCEdge_eq, andThen_next, clkTEdge_eq]⟩
  | reset => exact ⟨_, rfl⟩

/-- A step in a legal configuration answers a next state. -/
theorem step_answers {s : State} (hc : s.cfg.wf = true) : ∃ u, step s = .next u := by
  rw [step, if_pos hc]
  exact runEvent_answers _ _

/-- A step in any other configuration is refused. -/
theorem step_of_not_wf {s : State} (hc : ¬ s.cfg.wf = true) : step s = .refused .badConfiguration := by
  rw [step, if_neg hc]

/-- Settles O48: by the two cases of the configuration check. -/
theorem badConfigurationIsRefused : Obligations.BadConfigurationIsRefused := by
  intro s
  rw [← Config.wf_iff]
  refine ⟨fun hrefused hc => ?_, step_of_not_wf⟩
  obtain ⟨u, hu⟩ := step_answers hc
  rw [hu] at hrefused
  cases hrefused

end Sys2Proof.Machine
end

-- ==== Proofs of 10_state: the reset values, the frame of the non-storing operations, the invariant ====
section
/-! The statements drawn from 10_state. First the reset values, then what the operations that store nothing can do, then
the invariant of R42: what it does not look at, each operation that changes something it does look at, the parts of an
edge, the edges and the step. -/

namespace Sys2Proof.Machine

open Sys2Proof.Safety

/-! ### The values after reset (10_state R44) -/

theorem slots_pos (c : Config) : 0 < c.slots := Nat.two_pow_pos c.aw

@[simp] theorem bin2gray_zero : bin2gray 0 = 0 := rfl

@[simp] theorem gray2bin_zero (aw : Nat) : gray2bin aw 0 = 0 := by
  induction aw with
  | zero => rfl
  | succ k ih => rw [gray2bin_succ, Nat.zero_shiftRight, ih, Nat.xor_self]

@[simp] theorem codeOfCount_zero (c : Config) : codeOfCount c 0 = 0 := by
  rw [codeOfCount, Nat.zero_mod, bin2gray_zero]

/-- Settles O46: the registers are the fields of `State.resetOf`, and the index shown is that of the code 0. -/
theorem resetValues : Obligations.ResetValues := by
  intro c
  exact ⟨rfl, fun _ => Memory.read_empty _ _, rfl, rfl, gray2bin_zero c.aw⟩

theorem resetOf_widths (c : Config) : WidthsHold (State.resetOf c) where
  now := Nat.two_pow_pos _
  deadline := Nat.two_pow_pos _
  pos := slots_pos c
  posGray := slots_pos c
  sync1 := slots_pos c
  sync2 := slots_pos c
  mem := Memory.reset_wf _ _

/-- After reset every code of the crossing is that of index 0. -/
theorem resetOf_consistent (c : Config) : Consistent (State.resetOf c) where
  i1 := nofun
  i2 := nofun
  i3 := bin2gray_zero.symm
  i4 := nofun
  i5_sync1 := ⟨0, slots_pos c, rfl⟩
  i5_sync2 := ⟨0, slots_pos c, rfl⟩
  held_last := rfl
  held_codes := fun _ hg => ⟨0, slots_pos c, List.mem_singleton.mp hg⟩

theorem resetOf_inv {c : Config} (hc : c.wf = true) : Inv (State.resetOf c) :=
  ⟨hc, resetOf_widths c, resetOf_consistent c⟩

theorem resetOf_crossing (c : Config) : Crossing (State.resetOf c) 0 0 0 0 where
  order_ba := le_rfl
  order_ah := le_rfl
  order_hw := le_rfl
  pos := (Nat.zero_mod _).symm
  posGray := (codeOfCount_zero c).symm
  held := congrArg (fun g => [g]) (codeOfCount_zero c).symm
  sync1 := (codeOfCount_zero c).symm
  sync2 := (codeOfCount_zero c).symm

/-- Nothing was written, so the consumer has nothing to have lost. -/
theorem resetOf_lossFree (c : Config) : LossFree (System.resetOf c) [] 0 0 0 0 where
  crossing := resetOf_crossing c
  ring := nofun
  lastPos := (Nat.zero_mod _).symm
  shown := le_rfl
  copied := rfl
  poll := nofun

/-- Settles O45: `State.reset` is the reset of the default configuration, which is a legal one. -/
theorem resetHasTheInvariant : Obligations.ResetHasTheInvariant :=
  ⟨resetOf_inv (by decide), resetOf_crossing _,
    fun c hc => ⟨resetOf_inv hc, resetOf_crossing c, resetOf_lossFree c⟩⟩

/-! ### What the operations that store nothing can do -/

/-- What an operation that stores nothing may make of a state. `exec_nonStoring` says that it does no more. -/
inductive NonStoringEffect (s : State) : Instr → State → Prop where
  | nothing (i : Instr) : NonStoringEffect s i s
  | returns (i : Instr) (r : Result) : NonStoringEffect s i (setResult r s)
  | start : NonStoringEffect s .start (startAccepted s)
  | stop : NonStoringEffect s .stop (stopAccepted s)
  | responds (i : Instr) (code : CodeBit) (hi : i.format = .crsp) : NonStoringEffect s i (respond code s)
  | requests (i : Instr) (hi : i = .cmdAcq ∨ i = .acquire ∨ i = .exchange) : NonStoringEffect s i (beginExchange s)
  | captures (i : Instr) (code : Nat) (hi : i = .sync ∨ i.format = .gray) : NonStoringEffect s i (syncCapture code s)
  | reads (addr : Nat) : NonStoringEffect s (.rd addr) (readPort addr s)

theorem exec_nonStoring {i : Instr} {s t : State} (hi : storing i = false) (ht : exec i s = .next t) :
    NonStoringEffect s i t := by
  cases i with
  | start =>
    simp only [exec, execStart] at ht
    split at ht <;> cases ht
    · exact .start
    · exact .nothing _
  | stop =>
    simp only [exec, execStop] at ht
    split at ht <;> cases ht
    · exact .stop
    · exact .nothing _
  | respOk => cases ht; exact .responds _ _ rfl
  | respTimerArmFailure => cases ht; exact .responds _ _ rfl
  | cmdAcq => cases ht; exact .requests _ (.inl rfl)
  | rspAcq u0 u1 rawHi rawLo => cases hi
  | cursor code =>
    simp only [exec, execCursor] at ht
    split at ht <;> cases ht
    · exact .captures _ _ (.inr rfl)
    · exact .nothing _
  | tick => cases hi
  | acquire =>
    simp only [exec, execAcquire] at ht
    split at ht
    · cases ht; exact .requests _ (.inr (.inl rfl))
    · split at ht <;> cases ht
      · exact .returns _ _
      · exact .nothing _
  | encode => cases ht; exact .returns _ _
  | exchange =>
    simp only [exec, execExchange] at ht
    split at ht
    · cases ht; exact .requests _ (.inr (.inr rfl))
    · split at ht <;> cases ht
      · exact .returns _ _
      · exact .nothing _
  | decode rx0 rx1 rx2 => cases ht; exact .returns _ _
  | truncate raw => cases ht; exact .returns _ _
  | write sample => cases hi
  | pos => cases ht; exact .returns _ _
  | rd addr => cases ht; exact .reads addr
  | sync => cases ht; exact .captures _ _ (.inl rfl)

/-- Settles O30: each effect of an operation that stores nothing writes the registers of its rule alone. -/
theorem nonStoringOperationsFrame : Obligations.NonStoringOperationsFrame := by
  intro i s t hi ht
  cases exec_nonStoring hi ht with
  | nothing => simp
  | returns i r => simp [readSlot]
  | start =>
    rcases startAccepted_cases s with ⟨-, e⟩ | ⟨-, -, e⟩ | ⟨-, -, e⟩ <;> simp [e, readSlot, Instr.format]
  | stop =>
    rcases stopAccepted_cases s with ⟨-, e⟩ | ⟨-, -, e⟩ | ⟨-, -, e⟩ <;> simp [e, readSlot, Instr.format]
  | responds i code hcrsp => simp [hcrsp, readSlot]
  | requests i hreq => rcases hreq with rfl | rfl | rfl <;> simp [readSlot]
  | captures i code hcap =>
    rcases hcap with rfl | hgray
    · simp [readSlot]
    · simp [hgray, readSlot]
  | reads addr => simp [readSlot]

/-! ### What the invariant looks at (10_state R42) -/

/-- The code of an index has the index's width. -/
theorem bin2gray_lt {aw b : Nat} (h : b < 2 ^ aw) : bin2gray b < 2 ^ aw :=
  Nat.xor_lt_two_pow h ((Nat.shiftRight_le b 1).trans_lt h)

theorem nextSlot_lt (c : Config) (q : Nat) : nextSlot c q < c.slots := Nat.mod_lt _ (slots_pos c)

/-- The state with everything the invariant does not look at put to its reset value. -/
def invView (s : State) : State :=
  { s with ctlRespValid := false, ctlErr := 0, rdData := 0, result := .none, schedule := [], edges := 0,
           inp := { t := TIn.quiet, c := CIn.quiet, race := none } }

theorem inv_invView {s : State} : Inv (invView s) ↔ Inv s :=
  ⟨fun h => ⟨h.cfg, { h.widths with }, { h.consistent with }⟩,
   fun h => ⟨h.cfg, { h.widths with }, { h.consistent with }⟩⟩

theorem inv_of_view {s t : State} (h : Inv s) (hview : invView t = invView s) : Inv t :=
  inv_invView.mp (hview ▸ inv_invView.mpr h)

/-! Each operation that changes something the invariant looks at, with what it needs of the state it meets. -/

section
variable {p s : State}

theorem inv_clearPulses (h : Inv s) : Inv (clearPulses s) :=
  ⟨h.cfg, { h.widths with }, { h.consistent with i4 := nofun }⟩

theorem inv_countTime (h : Inv s) : Inv (countTime s) :=
  ⟨h.cfg, { h.widths with now := Nat.mod_lt _ (Nat.two_pow_pos _) }, { h.consistent with }⟩

/-- A write advances cursor and code together, and the code joins those held. -/
theorem inv_ringWrite (v : Sample) (h : Inv s) : Inv (ringWrite v s) where
  cfg := h.cfg
  widths :=
    { h.widths with
      pos := nextSlot_lt _ _
      posGray := bin2gray_lt (nextSlot_lt _ _)
      mem := Memory.write_wf h.widths.pos h.widths.mem }
  consistent :=
    { h.consistent with
      i3 := rfl
      held_last := List.getLast?_concat
      held_codes := fun g hg => by
        rcases List.mem_append.mp hg with hold | hnew
        · exact h.consistent.held_codes g hold
        · exact ⟨_, nextSlot_lt _ _, List.mem_singleton.mp hnew⟩ }

theorem inv_writeAnswer (a : Answer) (h : Inv s) : Inv (writeAnswer a s) := by
  cases a with
  | bytes rx0 rx1 rx2 => exact inv_ringWrite _ h
  | busError status => exact h

/-- The end of a tick, with no request pulse on the bus: no STOP is deferred any longer. -/
theorem inv_releaseStop_rearm (h : Inv s) (hbus : s.busReq = false) : Inv (releaseStop (rearm s)) :=
  ⟨h.cfg, { h.widths with deadline := Nat.mod_lt _ (Nat.two_pow_pos _) },
    { h.consistent with i1 := nofun, i2 := nofun, i4 := by simp [hbus] }⟩

/-- A completed tick is a write, a rearm and a released STOP; where no STOP was deferred, releasing one changes nothing
the invariant looks at. -/
theorem inv_completeTick (a : Answer) (h : Inv s) (hbus : s.busReq = false) : Inv (completeTick a s) := by
  have hbus' : (writeAnswer a s).busReq = false := by cases a <;> exact hbus
  have hview : invView (completeTick a s) = invView (releaseStop (rearm (writeAnswer a s))) := by
    rw [completeTick_eq]
    cases a <;> rfl
  exact inv_of_view (inv_releaseStop_rearm (inv_writeAnswer a h) hbus') hview

theorem inv_arm (h : Inv s) (hstop : s.stopPend = false) : Inv (arm s) :=
  ⟨h.cfg, { h.widths with deadline := Nat.mod_lt _ (Nat.two_pow_pos _) },
    { h.consistent with i1 := by simp [hstop], i2 := nofun }⟩

theorem inv_disarm (h : Inv s) (hseq : s.seq = .wait) : Inv (disarm s) :=
  ⟨h.cfg, { h.widths with },
    { h.consistent with i1 := fun hp => ⟨rfl, (h.consistent.i1 hp).2⟩, i2 := by simp [hseq] }⟩

theorem inv_deferStop_disarm (h : Inv s) (hseq : s.seq = .exch) : Inv (deferStop (disarm s)) :=
  ⟨h.cfg, { h.widths with }, { h.consistent with i1 := fun _ => ⟨rfl, hseq⟩, i2 := fun _ _ => rfl }⟩

theorem inv_startAccepted (h : Inv s) (hstop : s.stopPend = false) : Inv (startAccepted s) := by
  rcases startAccepted_cases s with ⟨-, e⟩ | ⟨-, -, e⟩ | ⟨-, -, e⟩
  · exact inv_of_view h (by rw [e]; rfl)
  · exact inv_of_view h (by rw [e]; rfl)
  · exact inv_of_view (inv_arm h hstop) (by rw [e]; rfl)

/-- With no completion at hand a STOP finds a tick in flight exactly in phase EXCH. -/
theorem inFlight_of_not_complete (hc : complete s = false) : inFlight s = decide (s.seq = .exch) := by
  rw [inFlight, hc, Bool.not_false, Bool.and_true]

theorem inv_stopAccepted (h : Inv s) (hc : complete s = false) : Inv (stopAccepted s) := by
  rcases stopAccepted_cases s with ⟨-, e⟩ | ⟨-, hfly, e⟩ | ⟨-, hfly, e⟩
  · exact inv_of_view h (by rw [e]; rfl)
  · rw [inFlight_of_not_complete hc, decide_eq_true_iff] at hfly
    rw [e]
    exact inv_deferStop_disarm h hfly
  · have hwait : s.seq = .wait := by
      cases hseq : s.seq with
      | wait => rfl
      | exch => simp [inFlight_of_not_complete hc, hseq] at hfly
    exact inv_of_view (inv_disarm h hwait) (by rw [e]; rfl)

/-- A tick starts while Running only, where no STOP is deferred. -/
theorem inv_enterTick (h : Inv s) (hrun : s.run = .running) : Inv (enterTick s) :=
  ⟨h.cfg, { h.widths with },
    { h.consistent with
      i1 := fun hp => ⟨(h.consistent.i1 hp).1, rfl⟩
      i2 := by simp [hrun]
      i4 := fun _ => rfl }⟩

/-- The synchroniser stays on codes of indices when it captures a code held. -/
theorem inv_syncCapture {code : Nat} (h : Inv s) (hcode : code ∈ s.grayHeld) : Inv (syncCapture code s) := by
  obtain ⟨q, hq, rfl⟩ := h.consistent.held_codes code hcode
  exact
    { cfg := h.cfg
      widths := { h.widths with sync1 := bin2gray_lt hq, sync2 := h.widths.sync1 }
      consistent :=
        { h.consistent with
          i5_sync1 := ⟨q, hq, rfl⟩
          i5_sync2 := h.consistent.i5_sync1
          held_last := rfl
          held_codes := fun g hg => ⟨s.pos, h.widths.pos, (List.mem_singleton.mp hg).trans h.consistent.i3⟩ } }

/-! ### The parts of an edge of `clk_t` keep the invariant -/

theorem inv_completionPart (h : Inv s) (hbus : s.busReq = false) : Inv (completionPart p s) := by
  unfold completionPart
  split
  · exact inv_completeTick _ h hbus
  · exact h

theorem inv_commandPart (h : Inv s) (hstop : accept p = true → s.stopPend = false) (hc : complete s = false) :
    Inv (commandPart p s) := by
  unfold commandPart
  split
  next hstart =>
    rw [isStart, Bool.and_eq_true] at hstart
    exact inv_startAccepted h (hstop hstart.1)
  next =>
    split
    · exact inv_stopAccepted h hc
    · exact h

theorem inv_firingPart (h : Inv s) (hrun : fire p = true → s.run = .running) : Inv (firingPart p s) := by
  unfold firingPart
  split
  next hfire => exact inv_enterTick h (hrun hfire)
  next => exact h

/-! What the later parts of an edge need of the earlier ones. -/

@[simp] theorem completionPart_run : (completionPart p s).run = s.run := by
  unfold completionPart
  split <;> simp [completeTick_eq]

/-- Once a completion has been served none is at hand: the phase is WAIT, or the edge brings no answer. -/
theorem complete_completionPart (hs : complete s = complete p) : complete (completionPart p s) = false := by
  unfold completionPart
  split
  · simp [complete, completeTick_eq]
  next hnot => rw [hs, Bool.eq_false_iff]; exact hnot

theorem completionPart_stopPend_of_accept (ha : accept p = true) (hs : s.stopPend = p.stopPend) :
    (completionPart p s).stopPend = false := by
  unfold completionPart
  split
  · simp [completeTick_eq]
  · simp only [accept, ctlReady, Bool.and_eq_true, Bool.not_eq_true'] at ha
    exact hs.trans ha.2

/-- Only a STOP ends Running. -/
theorem commandPart_run_of_not_stop (hstop : isStop p = false) (hrun : s.run = .running) :
    (commandPart p s).run = .running := by
  unfold commandPart
  split
  · simp [startAccepted, hrun]
  · rw [if_neg (by simp [hstop])]
    exact hrun

theorem fire_iff : fire p = true ↔
    p.run = .running ∧ reached p.cfg.tw p.now p.deadline = true ∧ p.seq = .wait ∧ isStop p = false := by
  simp [fire, pending, and_assoc]

/-! ### The edges and the step -/

variable {u : State}

/-- Everything an edge of `clk_t` does keeps the invariant: the request pulse is withdrawn before a tick may end, a tick
that ends is over before a STOP looks for it, and a tick starts only where no STOP took Running away. -/
theorem inv_clkTEdge {t : TIn} (h : Inv s) (hu : clkTEdge t s = .next u) : Inv u := by
  rw [clkTEdge_eq, Host.Outcome.next.injEq] at hu
  subst hu
  have hclear : Inv (clearPulses (sampleT t s)) := inv_clearPulses (inv_of_view h rfl)
  have hcompleted := inv_completionPart (p := sampleT t s) hclear rfl
  have hcommanded := inv_commandPart (p := sampleT t s) hcompleted
    (fun ha => completionPart_stopPend_of_accept ha rfl) (complete_completionPart rfl)
  refine inv_countTime (inv_firingPart hcommanded fun hfire => ?_)
  obtain ⟨hrun, -, -, hstop⟩ := fire_iff.mp hfire
  exact commandPart_run_of_not_stop hstop (completionPart_run.trans hrun)

/-- An edge of `clk_c` changes the synchroniser alone, which captures one of the codes held. -/
theorem inv_clkCEdge {race : Option Nat} {c : CIn} (h : Inv s) (hu : clkCEdge race c s = .next u) : Inv u := by
  rw [clkCEdge_eq, Host.Outcome.next.injEq] at hu
  subst hu
  have hheld : s.grayHeld ≠ [] := fun hnil => by simpa [hnil] using h.consistent.held_last
  have hdrawn : drawnCode (sampleC race c s) ∈ s.grayHeld := drawnCode_mem (s := sampleC race c s) hheld
  cases c.readPos with
  | true => exact inv_of_view (inv_syncCapture h hdrawn) rfl
  | false => exact inv_of_view (inv_syncCapture h hdrawn) rfl

theorem inv_runEvent {e : Event} (h : Inv s) (hu : runEvent e s = .next u) : Inv u := by
  cases e with
  | clkT t => exact inv_clkTEdge h hu
  | clkC c => exact inv_clkCEdge h hu
  | both t c tFirst =>
    cases tFirst with
    | true =>
      rw [runEvent, if_pos rfl, clkTEdge_eq, andThen_next] at hu
      exact inv_clkCEdge (inv_clkTEdge h (clkTEdge_eq t s)) hu
    | false =>
      rw [runEvent, if_neg Bool.false_ne_true, clkCEdge_eq, andThen_next] at hu
      exact inv_clkTEdge (inv_clkCEdge h (clkCEdge_eq _ c s)) hu
  | reset =>
    cases hu
    exact inv_of_view (resetOf_inv h.cfg) rfl

end

/-- Settles O44: a step in a configuration of the invariant is an event, and every event keeps it. -/
theorem stepKeepsTheInvariant : Obligations.StepKeepsTheInvariant := by
  intro s t h ht
  rw [step, if_pos h.cfg] at ht
  exact inv_runEvent (s := takeEvent s) (inv_of_view h rfl) ht

end Sys2Proof.Machine
end

-- ==== Proofs of 20_memory: the ring between the two clock domains ====
section
/-! The statements drawn from 20_memory. First what an edge of `clk_c` leaves unchanged and what its read returns, then
what each part of an edge of `clk_t` may change and what the edge does to the ring, then the two edges as one event. -/

namespace Sys2Proof.Machine

open Sys2Proof.Safety

section
variable {p s u : State}

/-! ### An edge of `clk_c` (20_memory R66, R68) -/

/-- An edge of `clk_c` reads the tick domain and the ring, and writes neither. -/
theorem clkCEdge_sameTickDomain {race : Option Nat} {c : CIn} (hu : clkCEdge race c s = .next u) :
    SameTickDomain s u := by
  rw [clkCEdge_eq, Host.Outcome.next.injEq] at hu
  subst hu
  cases c.readPos <;> simp [SameTickDomain]

/-- A slot reads the same in two states with one tick domain. -/
theorem readSlot_of_sameTickDomain (h : SameTickDomain s u) (a : Nat) : readSlot u a = readSlot s a := by
  obtain ⟨hcfg, -, -, -, -, -, -, -, -, -, -, hmem⟩ := h
  rw [readSlot, readSlot, hcfg, hmem]

/-- `rd_data` after an edge of `clk_c` is what the port returns for the ring before it (41_ring_buffer R148). -/
theorem clkCEdge_rdData {race : Option Nat} {c : CIn} (hu : clkCEdge race c s = .next u) :
    u.rdData = portByte (slotOf s.cfg c.rdAddr) (sampleC race c s) := by
  rw [clkCEdge_eq, Host.Outcome.next.injEq] at hu
  subst hu
  cases c.readPos <;> rfl

/-- The port returns the free byte for the slot of the race (20_memory R72). -/
theorem portByte_of_race {slot : Nat} (h : s.inp.race = some slot) : portByte slot s = s.inp.c.junk := if_pos h

theorem clkCEdge_rdData_of_race {c : CIn} {slot : Nat} (hslot : slotOf s.cfg c.rdAddr = slot)
    (hu : clkCEdge (some slot) c s = .next u) : u.rdData = c.junk := by
  rw [clkCEdge_rdData hu, hslot, portByte_of_race rfl, sampleC_inp]

/-! ### What each part of an edge of `clk_t` may change (42_scheduler R170) -/

/-- A command writes the timer and the response alone. -/
theorem commandPart_frame (p s : State) : ∃ run deadline stopPend valid err,
    commandPart p s =
      { s with run := run, deadline := deadline, stopPend := stopPend, ctlRespValid := valid, ctlErr := err } := by
  unfold commandPart
  split
  · rcases startAccepted_cases s with ⟨-, e⟩ | ⟨-, -, e⟩ | ⟨-, -, e⟩ <;> exact ⟨_, _, _, _, _, e⟩
  · split
    · rcases stopAccepted_cases s with ⟨-, e⟩ | ⟨-, -, e⟩ | ⟨-, -, e⟩ <;> exact ⟨_, _, _, _, _, e⟩
    · exact ⟨_, _, _, _, _, rfl⟩

/-- The start of a tick writes the phase and the request alone. -/
theorem firingPart_frame (p s : State) : ∃ seq busReq result,
    firingPart p s = { s with seq := seq, busReq := busReq, result := result } := by
  unfold firingPart
  split <;> exact ⟨_, _, _, rfl⟩

@[simp] theorem completionPart_cfg : (completionPart p s).cfg = s.cfg := by
  unfold completionPart
  split <;> simp [completeTick_eq]

@[simp] theorem completionPart_rdData : (completionPart p s).rdData = s.rdData := by
  unfold completionPart
  split <;> simp [completeTick_eq]

/-- The end of a tick stores a sample exactly where the edge writes a slot (41_ring_buffer R140). -/
theorem completionPart_mem (p s : State) : (completionPart p s).mem =
    if (writtenSlot p).isSome then
      Memory.write s.cfg.memInit s.mem s.pos (sampleOf p.inp.t.busRx1 p.inp.t.busRx2)
    else s.mem := by
  unfold completionPart writtenSlot answerOf
  cases complete p with
  | false => rfl
  | true => cases p.inp.t.busErr <;> simp [completeTick_eq]

/-- Of the parts of an edge of `clk_t` only the end of a tick reaches the ring, and none reaches the configuration or
the read port. -/
theorem clkTEdge_frame {t : TIn} (hu : clkTEdge t s = .next u) :
    u.cfg = s.cfg ∧ u.rdData = s.rdData ∧
      u.mem = (completionPart (sampleT t s) (clearPulses (sampleT t s))).mem := by
  rw [clkTEdge_eq, Host.Outcome.next.injEq] at hu
  subst hu
  obtain ⟨_, _, _, hfiring⟩ := firingPart_frame (sampleT t s)
    (commandPart (sampleT t s) (completionPart (sampleT t s) (clearPulses (sampleT t s))))
  obtain ⟨_, _, _, _, _, hcommand⟩ := commandPart_frame (sampleT t s)
    (completionPart (sampleT t s) (clearPulses (sampleT t s)))
  rw [hfiring, hcommand]
  exact ⟨completionPart_cfg, completionPart_rdData, rfl⟩

/-- No edge of `clk_t` writes a slot other than the one at the cursor. -/
theorem eq_pos_of_writtenSlot {slot : Nat} (h : writtenSlot s = some slot) : slot = s.pos := by
  unfold writtenSlot at h
  split at h <;> cases h
  rfl

/-- The slot an edge of `clk_t` writes reads the sample of the answer after it, on a ring in canonical form. -/
theorem clkTEdge_readSlot_of_written {t : TIn} {bound slot : Nat} (hmem : Memory.wf s.cfg.memInit bound s.mem = true)
    (hwritten : writtenSlot (sampleT t s) = some slot) (hu : clkTEdge t s = .next u) :
    readSlot u slot = sampleOf t.busRx1 t.busRx2 := by
  obtain ⟨hcfg, -, hring⟩ := clkTEdge_frame hu
  rw [completionPart_mem, hwritten, Option.isSome_some, if_pos rfl] at hring
  rw [readSlot, hcfg, hring]
  exact (Memory.read_write hmem).trans (if_pos (eq_pos_of_writtenSlot hwritten))

/-! ### The pair of edges as one event (20_memory R72) -/

/-- A successful answer to a tick in flight writes the slot at the cursor. -/
theorem writtenSlot_of_answer (hseq : s.seq = .exch) (hdone : s.inp.t.busDone = true) (herr : s.inp.t.busErr = false) :
    writtenSlot s = some s.pos := by
  simp [writtenSlot, complete, hseq, hdone, herr]

/-- Which slot an edge of `clk_t` writes is for the tick domain and its inputs to say. -/
theorem writtenSlot_of_sameTickDomain (t : TIn) (h : SameTickDomain s u) :
    writtenSlot (sampleT t u) = writtenSlot (sampleT t s) := by
  have hview : tickView (sampleT t s) = tickView (sampleT t u) := tickView_eq_iff.mpr ⟨h, rfl⟩
  exact (eq_of_tickView (f := writtenSlot) (fun _ => rfl) hview).symm

/-- In either order of the two edges the read is a race with the write, and the write is made: the edge of `clk_t`
leaves `rd_data` alone, the edge of `clk_c` leaves the tick domain alone. -/
theorem runEvent_both_of_collision {t : TIn} {c : CIn} {tFirst : Bool} {bound : Nat}
    (hmem : Memory.wf s.cfg.memInit bound s.mem = true) (hwritten : writtenSlot (sampleT t s) = some s.pos)
    (hslot : slotOf s.cfg c.rdAddr = s.pos) (hu : runEvent (.both t c tFirst) s = .next u) :
    u.rdData = c.junk ∧ readSlot u s.pos = sampleOf t.busRx1 t.busRx2 := by
  rw [runEvent, hwritten] at hu
  cases tFirst with
  | true =>
    obtain ⟨m, hm⟩ : ∃ m, clkTEdge t s = .next m := ⟨_, clkTEdge_eq t s⟩
    rw [if_pos rfl, hm, andThen_next] at hu
    obtain ⟨hcfg, -, -⟩ := clkTEdge_frame hm
    constructor
    · exact clkCEdge_rdData_of_race (hcfg ▸ hslot) hu
    · rw [readSlot_of_sameTickDomain (clkCEdge_sameTickDomain hu)]
      exact clkTEdge_readSlot_of_written hmem hwritten hm
  | false =>
    obtain ⟨m, hm⟩ : ∃ m, clkCEdge (some s.pos) c s = .next m := ⟨_, clkCEdge_eq _ c s⟩
    rw [if_neg Bool.false_ne_true, hm, andThen_next] at hu
    obtain ⟨-, hrd, -⟩ := clkTEdge_frame hu
    have hsame := clkCEdge_sameTickDomain hm
    have hwritten' := (writtenSlot_of_sameTickDomain t hsame).trans hwritten
    obtain ⟨hcfg, -, -, -, -, -, -, -, -, -, -, hring⟩ := hsame
    constructor
    · exact hrd.trans (clkCEdge_rdData_of_race hslot hm)
    · exact clkTEdge_readSlot_of_written (by rw [hcfg, hring]; exact hmem) hwritten' hu

end

/-- Settles O41: an edge of `clk_c` leaves the tick domain, of which the ring is a part. -/
theorem consumerEdgeLeavesTheTickDomain : Obligations.ConsumerEdgeLeavesTheTickDomain := by
  intro s u c race hu
  have hsame := clkCEdge_sameTickDomain hu
  exact ⟨hsame, readSlot_of_sameTickDomain hsame⟩

/-- Settles O43: the event is a collision, with which `runEvent_both_of_collision` deals in both orders. -/
theorem collidingReadReturnsAnyByte : Obligations.CollidingReadReturnsAnyByte := by
  intro s t c tFirst rest hc _ hmem hsched hseq hdone herr hslot
  obtain ⟨u, hu⟩ := step_answers hc
  refine ⟨u, hu, ?_⟩
  rw [step_scheduled hc hsched] at hu
  exact runEvent_both_of_collision (s := { s with schedule := rest, edges := s.edges + 1 }) hmem
    (writtenSlot_of_answer hseq hdone herr) hslot hu

end Sys2Proof.Machine
end

-- ==== Proofs of 30_encoding: the words on the ports, the fields of a response, the Gray code, the response codes ====
section
/-! The statements drawn from 30_encoding. First the decoder port by port, both ways round, then the fields of a
response frame and the sample made of them, then the Gray code of the cursor, then who answers with code 1. -/

namespace Sys2Proof

/-! ### The decoder (30_encoding R90, R100) -/

theorem decode_of_wrongLength {aw nbits value : Nat} {fmt : Format} (h : nbits ≠ fmt.width aw) :
    decode aw { format := fmt, nbits := nbits, value := value } = .error .wrongLength := if_pos h

/-- Only a word of its format's length, whose value fits that length, is an operation. -/
theorem fits_of_decode {aw : Nat} {i : Instr} {f : Frame} (h : decode aw f = .ok i) :
    f.nbits = f.format.width aw ∧ f.value < 2 ^ f.format.width aw := by
  unfold decode at h
  split at h
  · cases h
  next hlength =>
    rw [not_not] at hlength
    split at h
    · cases h
    next hvalue => exact ⟨hlength, hlength ▸ Nat.lt_of_not_le hvalue⟩

/-- A value that fits `w` bits is that of a `w`-bit word. -/
theorem exists_word_of_lt {w value : Nat} (h : value < 2 ^ w) : ∃ b : BitVec w, b.toNat = value :=
  ⟨BitVec.ofNatLT value h, BitVec.toNat_ofNatLT value h⟩

/-! What the decoder makes of a word of the right length, port by port. -/

section
variable (aw : Nat)

theorem decode_ctl (b : CodeBit) :
    decode aw { format := .ctl, nbits := 1, value := b.toNat } = .ok (decodeCtl b) := by
  simp [decode, Format.width, Nat.not_le.mpr b.isLt]

theorem decode_crsp (b : CodeBit) :
    decode aw { format := .crsp, nbits := 1, value := b.toNat } = .ok (decodeCrsp b) := by
  simp [decode, Format.width, Nat.not_le.mpr b.isLt]

theorem decode_busTx (g : BusFrame) :
    decode aw { format := .bustx, nbits := 24, value := g.toNat } = decodeBusTx g := by
  simp [decode, Format.width, Nat.not_le.mpr g.isLt]

theorem decode_busRx (g : BusFrame) :
    decode aw { format := .busrx, nbits := 24, value := g.toNat } = .ok (decodeBusRx g) := by
  simp [decode, Format.width, Nat.not_le.mpr g.isLt]

theorem decode_gray {code : Nat} (h : code < 2 ^ aw) :
    decode aw { format := .gray, nbits := aw, value := code } = .ok (.cursor code) := by
  simp [decode, Format.width, Nat.not_le.mpr h]

theorem decode_event (nbits value : Nat) (i : Instr) :
    decode aw { format := .event, nbits := nbits, value := value } ≠ .ok i := by
  unfold decode
  split
  · nofun
  · split <;> nofun

/-! ### Encoding what was decoded (30_encoding R92, R93, R96, R97) -/

theorem encode_decodeCtl (b : CodeBit) :
    encode aw (decodeCtl b) = some { format := .ctl, nbits := 1, value := b.toNat } := by
  rcases Machine.codeBit_cases b with rfl | rfl <;> rfl

theorem encode_decodeCrsp (b : CodeBit) :
    encode aw (decodeCrsp b) = some { format := .crsp, nbits := 1, value := b.toNat } := by
  rcases Machine.codeBit_cases b with rfl | rfl <;> rfl

theorem encode_decodeBusRx (g : BusFrame) :
    encode aw (decodeBusRx g) = some { format := .busrx, nbits := 24, value := g.toNat } := by
  simp [decodeBusRx, encode, Machine.responseFrame_of_decoded]

end

/-- The one word of BUSTX that is an operation (30_encoding R92). -/
theorem decodeBusTx_eq_ok_iff {g : BusFrame} {i : Instr} :
    decodeBusTx g = .ok i ↔ g = commandFrame ∧ i = .cmdAcq := by
  unfold decodeBusTx
  split <;> simp [*, eq_comm]

/-- Settles O2: the word fits its format, and on each port the decoder loses nothing of it. -/
theorem encodeOfDecode : Obligations.EncodeOfDecode := by
  intro aw i f h
  obtain ⟨hlength, hvalue⟩ := fits_of_decode h
  obtain ⟨fmt, nbits, value⟩ := f
  dsimp only at hlength hvalue
  subst hlength
  cases fmt with
  | ctl =>
    obtain ⟨b, rfl⟩ := exists_word_of_lt hvalue
    cases (decode_ctl aw b).symm.trans h
    exact encode_decodeCtl aw b
  | crsp =>
    obtain ⟨b, rfl⟩ := exists_word_of_lt hvalue
    cases (decode_crsp aw b).symm.trans h
    exact encode_decodeCrsp aw b
  | bustx =>
    obtain ⟨g, rfl⟩ := exists_word_of_lt hvalue
    obtain ⟨rfl, rfl⟩ := decodeBusTx_eq_ok_iff.mp ((decode_busTx aw g).symm.trans h)
    rfl
  | busrx =>
    obtain ⟨g, rfl⟩ := exists_word_of_lt hvalue
    cases (decode_busRx aw g).symm.trans h
    exact encode_decodeBusRx aw g
  | gray =>
    cases (decode_gray aw hvalue).symm.trans h
    rfl
  | event => exact absurd h (decode_event aw _ _ i)

/-! ### Decoding what was encoded (30_encoding R90 to R98) -/

section
variable (u0 : BitVec 8) (u1 : BitVec 6) (rawHi : BitVec 2) (rawLo : BitVec 8)

/-! The fields of a response frame are found where they were put (30_encoding R93). -/

theorem responseFrame_rawLo : (responseFrame u0 u1 rawHi rawLo).extractLsb' 0 8 = rawLo :=
  BitVec.extractLsb'_append_eq_right

theorem responseFrame_rawHi : (responseFrame u0 u1 rawHi rawLo).extractLsb' 8 2 = rawHi :=
  (BitVec.extractLsb'_append_eq_of_le le_rfl).trans BitVec.extractLsb'_append_eq_right

theorem responseFrame_u1 : (responseFrame u0 u1 rawHi rawLo).extractLsb' 10 6 = u1 :=
  calc (u0 ++ u1 ++ rawHi ++ rawLo).extractLsb' 10 6
      = (u0 ++ u1 ++ rawHi).extractLsb' 2 6 := BitVec.extractLsb'_append_eq_of_le (by omega)
    _ = (u0 ++ u1).extractLsb' 0 6 := BitVec.extractLsb'_append_eq_of_le le_rfl
    _ = u1 := BitVec.extractLsb'_append_eq_right

theorem responseFrame_u0 : (responseFrame u0 u1 rawHi rawLo).extractLsb' 16 8 = u0 :=
  calc (u0 ++ u1 ++ rawHi ++ rawLo).extractLsb' 16 8
      = (u0 ++ u1 ++ rawHi).extractLsb' 8 8 := BitVec.extractLsb'_append_eq_of_le (by omega)
    _ = (u0 ++ u1).extractLsb' 6 8 := BitVec.extractLsb'_append_eq_of_le (by omega)
    _ = u0 := BitVec.extractLsb'_append_eq_left

theorem decodeBusRx_responseFrame :
    decodeBusRx (responseFrame u0 u1 rawHi rawLo) = .rspAcq u0 u1 rawHi rawLo := by
  rw [decodeBusRx, responseFrame_u0, responseFrame_u1, responseFrame_rawHi, responseFrame_rawLo]

end

/-- Settles O1: each operation with a word is what the decoder of its port makes of that word. -/
theorem decodeOfEncode : Obligations.DecodeOfEncode := by
  intro c i f hwf h
  cases i with
  | start => cases h; exact decode_ctl c.aw 1#1
  | stop => cases h; exact decode_ctl c.aw 0#1
  | respOk => cases h; exact decode_crsp c.aw 0#1
  | respTimerArmFailure => cases h; exact decode_crsp c.aw 1#1
  | cmdAcq =>
    cases h
    rw [decode_busTx, decodeBusTx_eq_ok_iff]
    exact ⟨rfl, rfl⟩
  | rspAcq u0 u1 rawHi rawLo =>
    cases h
    rw [decode_busRx, decodeBusRx_responseFrame]
  | cursor code =>
    cases h
    exact decode_gray c.aw (of_decide_eq_true hwf)
  | tick | acquire | encode | exchange | decode | truncate | write | pos | rd | sync => cases h

/-- Settles O4: each port's decoder, on the word of the table. -/
theorem specWordsDecode : Obligations.SpecWordsDecode :=
  ⟨decode_ctl 13 1#1, decode_ctl 13 0#1, decode_crsp 13 0#1, decode_crsp 13 1#1, decode_busTx 13 commandFrame,
    decode_busRx 13 0xAAFD90#24, decode_gray 13 (by decide)⟩

/-! ### The legal words (30_encoding R100) -/

theorem format_decodeCtl (b : CodeBit) : (decodeCtl b).format = .ctl := by
  unfold decodeCtl
  split <;> rfl

theorem format_decodeCrsp (b : CodeBit) : (decodeCrsp b).format = .crsp := by
  unfold decodeCrsp
  split <;> rfl

theorem commandFrame_toNat : commandFrame.toNat = 0x018000 := by decide

/-- Every code of a format other than BUSTX is an operation of that format. -/
theorem exists_decode_of_lt {aw value : Nat} {fmt : Format}
    (hfmt : fmt = .ctl ∨ fmt = .crsp ∨ fmt = .busrx ∨ fmt = .gray) (h : value < 2 ^ fmt.width aw) :
    ∃ i, decode aw { format := fmt, nbits := fmt.width aw, value := value } = .ok i ∧ i.format = fmt := by
  rcases hfmt with rfl | rfl | rfl | rfl
  · obtain ⟨b, rfl⟩ := exists_word_of_lt h
    exact ⟨_, decode_ctl aw b, format_decodeCtl b⟩
  · obtain ⟨b, rfl⟩ := exists_word_of_lt h
    exact ⟨_, decode_crsp aw b, format_decodeCrsp b⟩
  · obtain ⟨g, rfl⟩ := exists_word_of_lt h
    exact ⟨_, decode_busRx aw g, rfl⟩
  · exact ⟨_, decode_gray aw h, rfl⟩

/-- Settles O3: the command is the word `01 80 00`. -/
theorem legalWordsOfEachFormat : Obligations.LegalWordsOfEachFormat := by
  intro aw value
  refine ⟨fun fmt hfmt h => exists_decode_of_lt hfmt h, fun h => ?_, fun fmt nbits h => decode_of_wrongLength h⟩
  obtain ⟨g, rfl⟩ := exists_word_of_lt h
  rw [decode_busTx, decodeBusTx, ← commandFrame_toNat]
  simp only [BitVec.toNat_inj]

end Sys2Proof

namespace Sys2Proof.Machine

/-! ### The sample in a response (30_encoding R93, R95) -/

/-- The mask keeps the low two bits of the second byte, and the shift puts them above the third. -/
theorem decodeReading_eq (rx1 rx2 : Byte) : decodeReading rx1 rx2 = rx1.extractLsb' 0 2 ++ rx2 := by
  have hmask : (rx1 &&& 0x03#8).setWidth 10 = (rx1.extractLsb' 0 2).setWidth 10 := by
    apply BitVec.eq_of_toNat_eq
    simp only [BitVec.toNat_setWidth, BitVec.toNat_and, BitVec.extractLsb'_toNat, Nat.shiftRight_zero]
    rw [BitVec.toNat_ofNat, Nat.and_two_pow_sub_one_eq_mod _ 2]
  calc decodeReading rx1 rx2
      = (rx1.extractLsb' 0 2).setWidth 10 <<< 8 ||| rx2.setWidth 10 := by rw [decodeReading, hmask]
    _ = (rx1.extractLsb' 0 2 ++ rx2).setWidth 10 := BitVec.setWidth_append_eq_shiftLeft_setWidth_or.symm
    _ = rx1.extractLsb' 0 2 ++ rx2 := BitVec.setWidth_eq _

theorem truncateReading_eq (raw : RawReading) : truncateReading raw = raw.extractLsb' 2 8 := by
  apply BitVec.eq_of_toNat_eq
  simp [truncateReading, Nat.and_two_pow_sub_one_eq_mod _ 8]

/-- The sample is the bits `{rx1[1:0], rx2[7:2]}` of the answer. -/
theorem sampleOf_eq (rx1 rx2 : Byte) : sampleOf rx1 rx2 = rx1.extractLsb' 0 2 ++ rx2.extractLsb' 2 6 := by
  rw [sampleOf, truncateReading_eq, decodeReading_eq]
  apply BitVec.eq_of_getLsbD_eq
  intro i hi
  simp only [BitVec.getLsbD_append, BitVec.getLsbD_extractLsb']
  by_cases hlow : i < 6
  · simp [hi, hlow, show 2 + i < 8 by omega]
  · simp [hi, hlow, show ¬ 2 + i < 8 by omega, show 2 + i - 8 = i - 6 by omega]

section
variable (u0 : BitVec 8) (u1 : BitVec 6) (rawHi : BitVec 2) (rawLo : BitVec 8)

theorem byte1_responseFrame : (byte1 (responseFrame u0 u1 rawHi rawLo)).extractLsb' 0 2 = rawHi :=
  calc ((u0 ++ u1 ++ rawHi ++ rawLo).extractLsb' 8 8).extractLsb' 0 2
      = ((u0 ++ u1 ++ rawHi).extractLsb' 0 8).extractLsb' 0 2 :=
        congrArg (BitVec.extractLsb' 0 2) (BitVec.extractLsb'_append_eq_of_le le_rfl)
    _ = (u0 ++ u1 ++ rawHi).extractLsb' 0 2 := BitVec.extractLsb'_extractLsb'_of_le (by omega)
    _ = rawHi := BitVec.extractLsb'_append_eq_right

theorem byte2_responseFrame : byte2 (responseFrame u0 u1 rawHi rawLo) = rawLo :=
  BitVec.extractLsb'_append_eq_right

/-- The sample of a response frame is `G[9:2]`. -/
theorem sampleOf_responseFrame :
    sampleOf (byte1 (responseFrame u0 u1 rawHi rawLo)) (byte2 (responseFrame u0 u1 rawHi rawLo)) =
      rawHi ++ rawLo.extractLsb' 2 6 := by
  rw [sampleOf_eq, byte1_responseFrame, byte2_responseFrame]

/-! ### A response frame as an operation (42_scheduler R176) -/

variable {s : State}

theorem exec_rspAcq_of_exch (h : s.seq = .exch) :
    exec (.rspAcq u0 u1 rawHi rawLo) s =
      .next (completeTick (.bytes (byte0 (responseFrame u0 u1 rawHi rawLo))
        (byte1 (responseFrame u0 u1 rawHi rawLo)) (byte2 (responseFrame u0 u1 rawHi rawLo))) s) := by
  simp [exec, execRspAcq, h]

theorem exec_rspAcq_of_wait (h : s.seq = .wait) : exec (.rspAcq u0 u1 rawHi rawLo) s = .next s := by
  simp [exec, execRspAcq, h]

end

/-- A tick completed by a successful answer as one record (42_scheduler R176, R177, 41_ring_buffer R140). -/
theorem completeTick_bytes (rx0 rx1 rx2 : Byte) (s : State) :
    completeTick (.bytes rx0 rx1 rx2) s =
      { s with
        mem := Memory.write s.cfg.memInit s.mem s.pos (sampleOf rx1 rx2), pos := nextSlot s.cfg s.pos,
        posGray := bin2gray (nextSlot s.cfg s.pos),
        grayHeld := s.grayHeld ++ [bin2gray (nextSlot s.cfg s.pos)], result := .sample (sampleOf rx1 rx2),
        deadline := timeAfter s.cfg s.deadline s.cfg.period, seq := .wait, stopPend := false,
        ctlRespValid := s.stopPend || s.ctlRespValid, ctlErr := if s.stopPend then 0#1 else s.ctlErr } := by
  rw [completeTick_eq]
  rfl

/-- Settles O11: the frame completes the tick, and its sample is the high eight bits of its reading. -/
theorem responseCompletesTheTick : Obligations.ResponseCompletesTheTick := by
  intro u0 u1 hi lo s
  refine ⟨fun hexch => ?_, exec_rspAcq_of_wait u0 u1 hi lo⟩
  rw [exec_rspAcq_of_exch u0 u1 hi lo hexch, completeTick_bytes, sampleOf_responseFrame]
  rfl

/-! ### The Gray code of the cursor (30_encoding R98) -/

theorem bin2gray_shiftRight_one (b : Nat) : bin2gray b >>> 1 = bin2gray (b >>> 1) := Nat.shiftRight_xor_distrib

theorem gray2bin_bin2gray {aw b : Nat} (h : b < 2 ^ aw) : gray2bin aw (bin2gray b) = b := by
  induction aw generalizing b with
  | zero => exact (Nat.lt_one_iff.mp h).symm
  | succ k ih =>
    calc gray2bin (k + 1) (bin2gray b)
        = bin2gray b ^^^ gray2bin k (bin2gray (b >>> 1)) := by rw [gray2bin_succ, bin2gray_shiftRight_one]
      _ = b ^^^ b >>> 1 ^^^ b >>> 1 := by rw [ih (shiftRight_one_lt h), bin2gray]
      _ = b := Nat.xor_xor_cancel_right _ _

theorem bin2gray_gray2bin {aw g : Nat} (h : g < 2 ^ aw) : bin2gray (gray2bin aw g) = g :=
  calc bin2gray (gray2bin aw g)
      = g ^^^ gray2bin aw g >>> 1 ^^^ gray2bin aw g >>> 1 := by rw [bin2gray, ← gray2bin_eq_xor_shiftRight h]
    _ = g := Nat.xor_xor_cancel_right _ _

/-- Settles O26: each of the two undoes the other's exclusive-or with the number shifted. -/
theorem grayCodeIsInvertible : Obligations.GrayCodeIsInvertible := by
  intro aw b hb
  exact ⟨bin2gray_lt hb, gray2bin_bin2gray hb, gray2bin_lt hb, bin2gray_gray2bin hb⟩

/-- The code is linear: the bits in which two codes differ are the code of the bits in which the indices differ. -/
theorem bin2gray_xor (a b : Nat) : bin2gray (a ^^^ b) = bin2gray a ^^^ bin2gray b := by
  simp only [bin2gray, Nat.shiftRight_xor_distrib]
  ac_rfl

/-- The code of a block of ones is its top bit. -/
theorem bin2gray_two_pow_sub_one (i : Nat) : bin2gray (2 ^ (i + 1) - 1) = 2 ^ i := by
  apply Nat.eq_of_testBit_eq
  intro j
  simp only [bin2gray, Nat.testBit_xor, Nat.testBit_shiftRight, Nat.testBit_two_pow_sub_one, Nat.testBit_two_pow]
  grind

theorem xor_eq_of_lowest_ne {a b : Nat} (h : a % 2 ≠ b % 2) : a ^^^ b = 2 * (a / 2 ^^^ b / 2) + 1 := by
  have hlowest : (a ^^^ b) % 2 = 1 := by
    rw [Nat.xor_mod_two_eq_one]
    omega
  rw [← Nat.xor_div_two]
  omega

/-- An increment modulo `2 ^ (k + 1)` flips the lowest bit, and above it what the carry flips. -/
theorem xor_next_eq_two_mul_add_one (k b : Nat) :
    b ^^^ (b + 1) % 2 ^ (k + 1) = 2 * (b / 2 ^^^ (b + 1) / 2 % 2 ^ k) + 1 := by
  have hlowest : b % 2 ≠ (b + 1) % 2 ^ (k + 1) % 2 := by
    rw [Nat.mod_mod_of_dvd _ (Dvd.intro_left (2 ^ k) (pow_succ 2 k).symm)]
    omega
  rw [xor_eq_of_lowest_ne hlowest, pow_succ', Nat.mod_mul_right_div_self]

/-- The carry of an increment runs up to some bit: that bit and all below it are flipped, at the wrap every bit. -/
theorem xor_next_eq_ones {k b : Nat} (hb : b < 2 ^ (k + 1)) :
    ∃ i, i < k + 1 ∧ b ^^^ (b + 1) % 2 ^ (k + 1) = 2 ^ (i + 1) - 1 := by
  induction k generalizing b with
  | zero =>
    refine ⟨0, Nat.one_pos, ?_⟩
    interval_cases b <;> rfl
  | succ k ih =>
    rw [xor_next_eq_two_mul_add_one]
    rcases Nat.mod_two_eq_zero_or_one b with heven | hodd
    · have hhalf : (b + 1) / 2 % 2 ^ (k + 1) = b / 2 := by
        rw [show (b + 1) / 2 = b / 2 by omega]
        exact Nat.mod_eq_of_lt (by omega)
      exact ⟨0, Nat.succ_pos _, by rw [hhalf, Nat.xor_self]; rfl⟩
    · obtain ⟨i, hi, hcarry⟩ := ih (b := b / 2) (by omega)
      have hhalf : (b + 1) / 2 = b / 2 + 1 := by omega
      have hpos := Nat.two_pow_pos (i + 1)
      refine ⟨i + 1, by omega, ?_⟩
      rw [hhalf, hcarry]
      omega

/-- Settles O27: the indices differ in a block of ones from bit 0 up, so their codes in the top bit of it. -/
theorem grayCodeChangesOneBit : Obligations.GrayCodeChangesOneBit := by
  intro aw b haw hb
  obtain ⟨k, rfl⟩ := Nat.exists_eq_add_of_le' haw
  obtain ⟨i, hi, hcarry⟩ := xor_next_eq_ones hb
  exact ⟨i, hi, by rw [← bin2gray_xor, hcarry, bin2gray_two_pow_sub_one]⟩

/-- Settles O24: the two cases of the test that the code was held. -/
theorem cursorOperation : Obligations.CursorOperation := by
  intro g s
  exact ⟨fun hheld => if_pos hheld, fun hnot => if_neg hnot⟩

/-! ### The response codes (30_encoding R97, 60_exceptions R232) -/

/-- Settles O15: both rows are the response pulse with their code. -/
theorem responseCodes : Obligations.ResponseCodes := fun _ => ⟨rfl, rfl⟩

/-- The host is being answered TimerArmFailure. -/
def AnswersFailure (s : State) : Prop := s.ctlRespValid = true ∧ s.ctlErr = 1#1

theorem isStart_iff {p : State} :
    isStart p = true ↔ p.inp.t.ctlValid = true ∧ p.stopPend = false ∧ p.inp.t.ctlOp = 1#1 := by
  simp [isStart, accept, ctlReady, and_assoc]

section
variable {p s u : State}

@[simp] theorem completionPart_inp : (completionPart p s).inp = s.inp := by
  unfold completionPart
  split <;> simp [completeTick_eq]

/-- An accepted START is answered with 1 where it finds the timer Idle and the time base unsound. -/
theorem answersFailure_startAccepted :
    AnswersFailure (startAccepted s) ↔ s.run = .idle ∧ s.inp.t.tbOk = false := by
  rcases startAccepted_cases s with ⟨hrun, e⟩ | ⟨hrun, htb, e⟩ | ⟨hrun, htb, e⟩ <;>
    simp [AnswersFailure, *]

/-- The answer to a STOP is 0, and a deferred one leaves the response as it was. -/
theorem not_answersFailure_stopAccepted (h : ¬ AnswersFailure s) : ¬ AnswersFailure (stopAccepted s) := by
  rcases stopAccepted_cases s with ⟨-, e⟩ | ⟨-, -, e⟩ | ⟨-, -, e⟩
  · simp [AnswersFailure, e]
  · rw [e]; exact h
  · simp [AnswersFailure, e]

/-- The end of a tick answers nobody, or a deferred STOP. -/
theorem not_answersFailure_completionPart (h : s.ctlRespValid = false) :
    ¬ AnswersFailure (completionPart p s) := by
  unfold completionPart
  split
  · cases hstop : s.stopPend <;> simp [AnswersFailure, completeTick_eq, h, hstop]
  · simp [AnswersFailure, h]

theorem answersFailure_commandPart (h : ¬ AnswersFailure s) :
    AnswersFailure (commandPart p s) ↔ isStart p = true ∧ s.run = .idle ∧ s.inp.t.tbOk = false := by
  unfold commandPart
  split
  next hstart => simp [answersFailure_startAccepted, hstart]
  next hnot =>
    split
    · simp [not_answersFailure_stopAccepted h, hnot]
    · simp [h, hnot]

/-- A START answered with 1 leaves the timer Idle. -/
theorem commandPart_run_of_answersFailure (h : ¬ AnswersFailure s) (hfail : AnswersFailure (commandPart p s)) :
    (commandPart p s).run = .idle := by
  obtain ⟨hstart, hrun, htb⟩ := (answersFailure_commandPart h).mp hfail
  rw [commandPart, if_pos hstart]
  simp [startAccepted, hrun, htb]

/-- What the start of a tick and the count of `now` leave unchanged. -/
theorem answersFailure_countTime_firingPart :
    AnswersFailure (countTime (firingPart p s)) ↔ AnswersFailure s := by
  obtain ⟨_, _, _, e⟩ := firingPart_frame p s
  rw [e]
  rfl

@[simp] theorem firingPart_run : (firingPart p s).run = s.run := by
  obtain ⟨_, _, _, e⟩ := firingPart_frame p s
  rw [e]

end

/-- Settles O39: of the parts of an edge only the command part can answer with 1, by a START. -/
theorem onlyAFailedStartIsAnsweredWithOne : Obligations.OnlyAFailedStartIsAnsweredWithOne := by
  intro s u t hu
  rw [clkTEdge_eq, Host.Outcome.next.injEq] at hu
  subst hu
  have hcompleted : ¬ AnswersFailure (completionPart (sampleT t s) (clearPulses (sampleT t s))) :=
    not_answersFailure_completionPart rfl
  constructor
  · refine answersFailure_countTime_firingPart.trans ((answersFailure_commandPart hcompleted).trans ?_)
    rw [isStart_iff]
    simp [and_assoc]
  · intro hvalid herr
    rw [countTime_run, firingPart_run]
    exact commandPart_run_of_answersFailure hcompleted (answersFailure_countTime_firingPart.mp ⟨hvalid, herr⟩)

end Sys2Proof.Machine
end

-- ==== Proofs of 40_codec: the operations that return a value, the handshake of an exchange, the bits of an answer ====
section
/-! The statements drawn from 40_codec. First which bits of an answer an edge of `clk_t` looks at, then the values the
codec returns, then the handshake that ACQUIRE and EXCHANGE share. -/

namespace Sys2Proof.Machine

open Sys2Proof.Safety

/-! ### The bits of an answer that an edge looks at (40_codec R125) -/

/-- The machine with other bytes on the answer's three input ports. -/
def withBytes (rx0 rx1 rx2 : Byte) (s : State) : State :=
  { s with inp := { s.inp with t := { s.inp.t with busRx0 := rx0, busRx1 := rx1, busRx2 := rx2 } } }

@[simp] theorem registers_withBytes (rx0 rx1 rx2 : Byte) (s : State) :
    registers (withBytes rx0 rx1 rx2 s) = registers s := rfl

section
variable (rx0 rx1 rx2 : Byte) {p s : State}

theorem completeTick_withBytes (a : Answer) (s : State) :
    completeTick a (withBytes rx0 rx1 rx2 s) = withBytes rx0 rx1 rx2 (completeTick a s) := by
  rw [completeTick_eq, completeTick_eq]
  cases a <;> rfl

theorem startAccepted_withBytes (s : State) :
    startAccepted (withBytes rx0 rx1 rx2 s) = withBytes rx0 rx1 rx2 (startAccepted s) := by
  have hrun : (withBytes rx0 rx1 rx2 s).run = s.run := rfl
  have htb : (withBytes rx0 rx1 rx2 s).inp.t.tbOk = s.inp.t.tbOk := rfl
  rw [startAccepted, startAccepted, hrun, htb]
  cases s.run with
  | running => rfl
  | idle => cases s.inp.t.tbOk <;> rfl

theorem stopAccepted_withBytes (s : State) :
    stopAccepted (withBytes rx0 rx1 rx2 s) = withBytes rx0 rx1 rx2 (stopAccepted s) := by
  have hrun : (withBytes rx0 rx1 rx2 s).run = s.run := rfl
  have hfl : inFlight (withBytes rx0 rx1 rx2 s) = inFlight s := rfl
  rw [stopAccepted, stopAccepted, hrun, hfl]
  cases s.run with
  | idle => rfl
  | running => cases inFlight s <;> rfl

/-- The end of a tick looks at the sample of the answer and at no other bit of it (42_scheduler R176). -/
theorem completeTick_answerOf_withBytes
    (hsample : sampleOf rx1 rx2 = sampleOf p.inp.t.busRx1 p.inp.t.busRx2) :
    completeTick (answerOf (withBytes rx0 rx1 rx2 p)) s = completeTick (answerOf p) s := by
  have herr : (withBytes rx0 rx1 rx2 p).inp.t.busErr = p.inp.t.busErr := rfl
  unfold answerOf
  rw [herr]
  cases p.inp.t.busErr with
  | true => rfl
  | false =>
    change completeTick (.bytes rx0 rx1 rx2) s =
      completeTick (.bytes p.inp.t.busRx0 p.inp.t.busRx1 p.inp.t.busRx2) s
    rw [completeTick_bytes, completeTick_bytes, hsample]

/-! Each part of an edge of `clk_t` goes on with the other bytes as it does without them. -/

theorem completionPart_withBytes
    (hsample : sampleOf rx1 rx2 = sampleOf p.inp.t.busRx1 p.inp.t.busRx2) :
    completionPart (withBytes rx0 rx1 rx2 p) (withBytes rx0 rx1 rx2 s) =
      withBytes rx0 rx1 rx2 (completionPart p s) := by
  have hcomplete : complete (withBytes rx0 rx1 rx2 p) = complete p := rfl
  unfold completionPart
  rw [hcomplete]
  split
  · rw [completeTick_answerOf_withBytes rx0 rx1 rx2 hsample, completeTick_withBytes]
  · rfl

theorem commandPart_withBytes :
    commandPart (withBytes rx0 rx1 rx2 p) (withBytes rx0 rx1 rx2 s) = withBytes rx0 rx1 rx2 (commandPart p s) := by
  have hstart : isStart (withBytes rx0 rx1 rx2 p) = isStart p := rfl
  have hstop : isStop (withBytes rx0 rx1 rx2 p) = isStop p := rfl
  unfold commandPart
  rw [hstart, hstop]
  split
  · exact startAccepted_withBytes rx0 rx1 rx2 s
  · split
    · exact stopAccepted_withBytes rx0 rx1 rx2 s
    · rfl

theorem firingPart_withBytes :
    firingPart (withBytes rx0 rx1 rx2 p) (withBytes rx0 rx1 rx2 s) = withBytes rx0 rx1 rx2 (firingPart p s) := by
  have hfire : fire (withBytes rx0 rx1 rx2 p) = fire p := rfl
  unfold firingPart
  rw [hfire]
  split <;> rfl

/-- An edge whose answer has the same sample ends in the same state, the input ports themselves aside. -/
theorem clkTEdge_withBytes {t : TIn} {u : State} (hsample : sampleOf rx1 rx2 = sampleOf t.busRx1 t.busRx2)
    (hu : clkTEdge t s = .next u) :
    clkTEdge { t with busRx0 := rx0, busRx1 := rx1, busRx2 := rx2 } s = .next (withBytes rx0 rx1 rx2 u) := by
  have hsampled : sampleT { t with busRx0 := rx0, busRx1 := rx1, busRx2 := rx2 } s =
      withBytes rx0 rx1 rx2 (sampleT t s) := rfl
  have hclear : clearPulses (withBytes rx0 rx1 rx2 (sampleT t s)) =
      withBytes rx0 rx1 rx2 (clearPulses (sampleT t s)) := rfl
  rw [clkTEdge_eq, Host.Outcome.next.injEq] at hu
  have hcompletion := completionPart_withBytes rx0 rx1 rx2 (p := sampleT t s) (s := clearPulses (sampleT t s)) hsample
  rw [clkTEdge_eq, hsampled, hclear, hcompletion, commandPart_withBytes, firingPart_withBytes, ← hu]
  rfl

end

/-- Settles O8: the sample is made of those bits, and the edge looks at nothing else of the answer. -/
theorem sampleIsTheTopBits : Obligations.SampleIsTheTopBits := by
  refine ⟨sampleOf_eq, fun s t rx0 rx1 rx2 h1 h2 => ?_⟩
  have hsample : sampleOf rx1 rx2 = sampleOf t.busRx1 t.busRx2 := by rw [sampleOf_eq, sampleOf_eq, h1, h2]
  obtain ⟨u, hu⟩ : ∃ u, clkTEdge t s = .next u := ⟨_, clkTEdge_eq t s⟩
  exact ⟨u, _, hu, clkTEdge_withBytes rx0 rx1 rx2 hsample hu, registers_withBytes rx0 rx1 rx2 u⟩

/-! ### The values the codec returns (40_codec R120, R122, R123) -/

theorem commandFrame_eq : commandFrame = 0x018000#24 := BitVec.eq_of_toNat_eq commandFrame_toNat

/-- The bytes of the command, `01 80 00` (30_encoding R92). -/
theorem commandFrame_bytes :
    byte0 commandFrame = 0x01#8 ∧ byte1 commandFrame = 0x80#8 ∧ byte2 commandFrame = 0x00#8 := by decide

/-- Settles O5: the frame and its three bytes are constants. -/
theorem encodeReturnsTheCommand : Obligations.EncodeReturnsTheCommand := by
  intro s
  have hexec : exec .encode s = .next (setResult (.frame commandFrame) s) := rfl
  refine ⟨?_, commandFrame_bytes⟩
  rw [hexec, commandFrame_eq]
  rfl

/-- The reading as a number: the low two bits of `rx1` count 256 each. -/
theorem decodeReading_toNat (rx1 rx2 : Byte) :
    (decodeReading rx1 rx2).toNat = rx1.toNat % 4 * 256 + rx2.toNat := by
  rw [decodeReading_eq, BitVec.toNat_append, ← Nat.shiftLeft_add_eq_or_of_lt rx2.isLt, BitVec.extractLsb'_toNat,
    Nat.shiftRight_zero, Nat.shiftLeft_eq]

theorem truncateReading_toNat (raw : RawReading) : (truncateReading raw).toNat = raw.toNat / 4 := by
  have hraw := raw.isLt
  rw [truncateReading_eq, BitVec.extractLsb'_toNat, Nat.shiftRight_eq_div_pow]
  omega

/-- Settles O6: the reading the operation returns is that number. -/
theorem decodeReturnsTheReading : Obligations.DecodeReturnsTheReading :=
  fun _ rx1 rx2 _ => ⟨decodeReading rx1 rx2, rfl, decodeReading_toNat rx1 rx2⟩

/-- Settles O7: a quarter of a ten-bit number fits a byte. -/
theorem truncateReturnsTheSample : Obligations.TruncateReturnsTheSample :=
  fun raw _ => ⟨truncateReading raw, rfl, truncateReading_toNat raw, Nat.le_of_lt_succ (truncateReading raw).isLt⟩

/-! ### The handshake of an exchange (40_codec R121, R124, 43_external_interfaces R210) -/

/-- The request half of an exchange: the pulse, and the command frame. -/
theorem beginExchange_eq (s : State) :
    beginExchange s = { s with busReq := true, result := .frame 0x018000#24 } := by
  rw [beginExchange, commandFrame_eq]

/-- One edge of an exchange that returns `r a` for the transport's answer `a`: ACQUIRE and EXCHANGE differ in `r` alone
(`exec_acquire_eq`, `exec_exchange_eq`). -/
def exchangeEdge (r : Answer → Result) (s : State) : State :=
  match s.seq with
  | .wait => beginExchange s
  | .exch => if s.inp.t.busDone then setResult (r (answerOf s)) s else s

theorem exec_acquire_eq (s : State) : exec .acquire s = .next (exchangeEdge acquired s) := by
  simp only [exec, execAcquire, exchangeEdge]
  cases s.seq with
  | wait => rfl
  | exch => cases s.inp.t.busDone <;> rfl

theorem exec_exchange_eq (s : State) : exec .exchange s = .next (exchangeEdge .answer s) := by
  simp only [exec, execExchange, exchangeEdge]
  cases s.seq with
  | wait => rfl
  | exch => cases s.inp.t.busDone <;> rfl

section
variable {r : Answer → Result} {s : State}

theorem exchangeEdge_of_wait (hwait : s.seq = .wait) :
    exchangeEdge r s = { s with busReq := true, result := .frame 0x018000#24 } := by
  simp [exchangeEdge, hwait, beginExchange_eq]

theorem exchangeEdge_of_unanswered (hexch : s.seq = .exch) (hdone : s.inp.t.busDone = false) :
    exchangeEdge r s = s := by
  simp [exchangeEdge, hexch, hdone]

theorem exchangeEdge_of_success (hexch : s.seq = .exch) (hdone : s.inp.t.busDone = true)
    (herr : s.inp.t.busErr = false) :
    exchangeEdge r s = { s with result := r (.bytes s.inp.t.busRx0 s.inp.t.busRx1 s.inp.t.busRx2) } := by
  simp [exchangeEdge, hexch, hdone, answerOf, herr, setResult]

theorem exchangeEdge_of_failure (hexch : s.seq = .exch) (hdone : s.inp.t.busDone = true)
    (herr : s.inp.t.busErr = true) :
    exchangeEdge r s = { s with result := r (.busError (s.inp.t.busStatus % 2 ^ s.cfg.sw)) } := by
  simp [exchangeEdge, hexch, hdone, answerOf, herr, setResult]

end

/-- Settles O9: the four cases of an exchange that returns what ACQUIRE makes of the answer. -/
theorem acquireOverOneTick : Obligations.AcquireOverOneTick := by
  intro s
  rw [exec_acquire_eq]
  refine ⟨fun hwait => ?request, fun hexch hdone => ?wait, fun hexch hdone herr => ?sample,
    fun hexch hdone herr => ?failure⟩
  case request => rw [exchangeEdge_of_wait hwait]
  case wait => rw [exchangeEdge_of_unanswered hexch hdone]
  case sample =>
    rw [exchangeEdge_of_success hexch hdone herr]
    rfl
  case failure =>
    rw [exchangeEdge_of_failure hexch hdone herr]
    rfl

/-- Settles O10: CMD_ACQ is the request alone; EXCHANGE is the four cases of an exchange that returns the answer. -/
theorem exchangeHandshake : Obligations.ExchangeHandshake := by
  intro s
  have hcommand : exec .cmdAcq s = .next (beginExchange s) := rfl
  rw [hcommand, exec_exchange_eq, beginExchange_eq]
  refine ⟨rfl, fun hwait => ?request, fun hexch hdone => ?wait, fun hexch hdone herr => ?bytes,
    fun hexch hdone herr => ?failure⟩
  case request => rw [exchangeEdge_of_wait hwait]
  case wait => rw [exchangeEdge_of_unanswered hexch hdone]
  case bytes => rw [exchangeEdge_of_success hexch hdone herr]
  case failure => rw [exchangeEdge_of_failure hexch hdone herr]

end Sys2Proof.Machine
end

-- ==== Proofs of 41_ring_buffer: the operations of the ring, lists of writes, one event, the order of the crossing ====
section
/-! The statements drawn from 41_ring_buffer. First the operations on the ring and the crossing one by one, then a list
of writes, then what one event does to the ring buffer: an edge of `clk_t` writes or leaves it, an edge of `clk_c`
captures a code held. The order of the crossing and its staleness bound follow from that. -/

namespace Sys2Proof.Machine

open Sys2Proof.Safety

/-! ### The ring's operations (41_ring_buffer R140, R143, R144, R148) -/

section
variable {s : State}

/-- A slot after a write on a ring in canonical form. -/
theorem readSlot_ringWrite (hmem : Memory.wf s.cfg.memInit s.cfg.slots s.mem = true) (v : Sample) (a : Nat) :
    readSlot (ringWrite v s) a = if a = s.pos then v else readSlot s a :=
  Memory.read_write hmem

/-- The end of a tick leaves every slot but the one at the cursor, whatever the answer. -/
theorem readSlot_completeTick_of_ne (hmem : Memory.wf s.cfg.memInit s.cfg.slots s.mem = true) (a : Answer) {slot : Nat}
    (hslot : slot ≠ s.pos) : readSlot (completeTick a s) slot = readSlot s slot := by
  have hring : readSlot (completeTick a s) slot = readSlot (writeAnswer a s) slot := by
    rw [completeTick_eq]
    cases a <;> rfl
  rw [hring]
  cases a with
  | bytes rx0 rx1 rx2 => rw [writeAnswer_bytes, readSlot_ringWrite hmem, if_neg hslot]
  | busError status => rfl

theorem portByte_of_no_race {slot : Nat} (h : s.inp.race ≠ some slot) : portByte slot s = readSlot s slot := if_neg h

/-- Every code held is captured for some draw of the environment. -/
theorem exists_pick_of_mem {g : Nat} (hg : g ∈ s.grayHeld) :
    ∃ pick, drawnCode { s with inp := { s.inp with c := { s.inp.c with pick := pick } } } = g := by
  obtain ⟨k, hk, rfl⟩ := List.getElem_of_mem hg
  refine ⟨k, ?_⟩
  rw [drawnCode, Nat.mod_eq_of_lt hk, List.getD_eq_getElem _ _ hk]

end

/-- Settles O20: the ring after the write is read with `readSlot_ringWrite`. -/
theorem writeOperation : Obligations.WriteOperation := by
  intro v s hmem
  refine ⟨ringWrite v s, rfl, rfl, ?_, fun a ha => ?_⟩
  · rw [readSlot_ringWrite hmem, if_pos rfl]
  · rw [readSlot_ringWrite hmem, if_neg ha]

/-- Settles O21: the value returned is the one field the operation writes. -/
theorem posOperation : Obligations.PosOperation := fun _ => rfl

/-- Settles O22: the two cases of the read port. -/
theorem rdOperation : Obligations.RdOperation := by
  intro addr s
  have hexec : exec (.rd addr) s = .next { s with rdData := portByte (addr % 2 ^ s.cfg.aw) s } := rfl
  refine ⟨fun hno => ?_, fun hrace => ?_⟩
  · rw [hexec, portByte_of_no_race hno]
  · rw [hexec, portByte_of_race hrace]

/-- Settles O23: the code captured is the draw, which is of the codes held, and any of them. -/
theorem syncOperation : Obligations.SyncOperation := by
  have hexec (s : State) : exec .sync s =
      .next { s with sync2 := s.sync1, sync1 := drawnCode s, grayHeld := [s.posGray] } := rfl
  refine ⟨fun s hheld => ⟨drawnCode s, drawnCode_mem hheld, hexec s, drawnCode_single⟩, fun s g hg => ?_⟩
  obtain ⟨pick, hpick⟩ := exists_pick_of_mem hg
  exact ⟨pick, by rw [hexec, hpick]⟩

/-! ### What the operations that can store a sample can do -/

/-- What an operation that can store a sample may make of a state. `exec_storing` says that it does no more. -/
inductive StoringEffect (s : State) : Instr → State → Prop where
  | writes (v : Sample) : StoringEffect s (.write v) (ringWrite v s)
  | completes (i : Instr) (a : Answer) (hi : ∀ v, i ≠ .write v) : StoringEffect s i (completeTick a s)
  | fires : StoringEffect s .tick (enterTick s)
  | nothing (i : Instr) : StoringEffect s i s

theorem exec_storing {i : Instr} {s t : State} (hi : storing i = true) (ht : exec i s = .next t) :
    StoringEffect s i t := by
  cases i with
  | tick =>
    simp only [exec, execTick] at ht
    split at ht
    · cases ht; exact .completes _ _ nofun
    · split at ht <;> cases ht
      · exact .fires
      · exact .nothing _
  | rspAcq u0 u1 rawHi rawLo =>
    simp only [exec, execRspAcq] at ht
    split at ht <;> cases ht
    · exact .completes _ _ nofun
    · exact .nothing _
  | write v => cases ht; exact .writes v
  | _ => cases hi

/-- Settles O31: each effect of an operation that can store a sample. -/
theorem storingOperationsFrame : Obligations.StoringOperationsFrame := by
  intro i s t hi ht hmem
  cases exec_storing hi ht with
  | writes v =>
    have hslots : ∀ a, a ≠ s.pos → readSlot (ringWrite v s) a = readSlot s a := fun a ha => by
      rw [readSlot_ringWrite hmem, if_neg ha]
    exact ⟨hslots, by simp⟩
  | completes i a hnot => exact ⟨fun _ => readSlot_completeTick_of_ne hmem a, by simp [completeTick_eq, hnot]⟩
  | fires => exact ⟨fun _ _ => rfl, by simp⟩
  | nothing => simp

/-! ### A list of writes (41_ring_buffer R141) -/

/-- The writes of the samples, one after the other (`runOps_writes`). -/
def ringWrites (vs : List Sample) (s : State) : State := vs.foldl (fun s v => ringWrite v s) s

@[simp] theorem ringWrites_nil (s : State) : ringWrites [] s = s := rfl

@[simp] theorem ringWrites_cons (v : Sample) (vs : List Sample) (s : State) :
    ringWrites (v :: vs) s = ringWrites vs (ringWrite v s) := rfl

theorem runOps_writes (vs : List Sample) (s : State) : runOps (vs.map .write) s = .next (ringWrites vs s) := by
  induction vs generalizing s with
  | nil => rfl
  | cons v vs ih => exact ih (ringWrite v s)

/-- `j` slots on from the next slot is `j + 1` slots on. -/
theorem nextSlot_add_mod (c : Config) (p j : Nat) : (nextSlot c p + j) % c.slots = (p + (j + 1)) % c.slots := by
  rw [nextSlot, Nat.mod_add_mod, Nat.add_right_comm, Nat.add_assoc]

/-- Fewer than a lap on, the cursor is not back. -/
theorem ne_add_mod {p j n : Nat} (hp : p < n) (hpos : 0 < j) (hj : j < n) : p ≠ (p + j) % n := by
  rcases Nat.lt_or_ge (p + j) n with hlt | hge
  · rw [Nat.mod_eq_of_lt hlt]
    omega
  · rw [Nat.mod_eq_sub_mod hge, Nat.mod_eq_of_lt (by omega)]
    omega

theorem ringWrites_pos {s : State} (vs : List Sample) (hpos : s.pos < s.cfg.slots) :
    (ringWrites vs s).pos = (s.pos + vs.length) % s.cfg.slots := by
  induction vs generalizing s with
  | nil => exact (Nat.mod_eq_of_lt hpos).symm
  | cons v vs ih =>
    calc (ringWrites vs (ringWrite v s)).pos
        = (nextSlot s.cfg s.pos + vs.length) % s.cfg.slots := ih (s := ringWrite v s) (nextSlot_lt _ _)
      _ = (s.pos + (vs.length + 1)) % s.cfg.slots := nextSlot_add_mod _ _ _

/-- A slot the writes do not reach keeps its content. -/
theorem readSlot_ringWrites_of_not_reached {s : State} {vs : List Sample} {a : Nat} (hpos : s.pos < s.cfg.slots)
    (hmem : Memory.wf s.cfg.memInit s.cfg.slots s.mem = true)
    (ha : ∀ j, j < vs.length → a ≠ (s.pos + j) % s.cfg.slots) : readSlot (ringWrites vs s) a = readSlot s a := by
  induction vs generalizing s with
  | nil => rfl
  | cons v vs ih =>
    have hfirst : a ≠ s.pos := by
      simpa [Nat.mod_eq_of_lt hpos] using ha 0 (Nat.succ_pos _)
    have hrest : ∀ j, j < vs.length → a ≠ (nextSlot s.cfg s.pos + j) % s.cfg.slots := fun j hj => by
      rw [nextSlot_add_mod]
      exact ha (j + 1) (Nat.succ_lt_succ hj)
    calc readSlot (ringWrites vs (ringWrite v s)) a
        = readSlot (ringWrite v s) a :=
          ih (s := ringWrite v s) (nextSlot_lt _ _) (Memory.write_wf hpos hmem) hrest
      _ = readSlot s a := by rw [readSlot_ringWrite hmem, if_neg hfirst]

/-- A write of the last lap is in its slot: fewer than a lap of writes come after it and none of them reaches it. -/
theorem readSlot_ringWrites_of_last_lap {s : State} {vs : List Sample} {j : Nat} {v : Sample}
    (hpos : s.pos < s.cfg.slots) (hmem : Memory.wf s.cfg.memInit s.cfg.slots s.mem = true) (hv : vs[j]? = some v)
    (hj : vs.length ≤ j + s.cfg.slots) : readSlot (ringWrites vs s) ((s.pos + j) % s.cfg.slots) = v := by
  induction vs generalizing s j with
  | nil => cases hv
  | cons v₀ vs ih =>
    have hmem' := Memory.write_wf (v := v₀) hpos hmem
    rw [List.length_cons] at hj
    cases j with
    | zero =>
      cases hv
      have hlater : ∀ k, k < vs.length → s.pos ≠ (nextSlot s.cfg s.pos + k) % s.cfg.slots := fun k hk => by
        rw [nextSlot_add_mod]
        exact ne_add_mod hpos k.succ_pos (by omega)
      rw [Nat.add_zero, Nat.mod_eq_of_lt hpos, ringWrites_cons,
        readSlot_ringWrites_of_not_reached (s := ringWrite v s) (nextSlot_lt _ _) hmem' hlater,
        readSlot_ringWrite hmem, if_pos rfl]
    | succ k =>
      rw [← nextSlot_add_mod]
      exact ih (s := ringWrite v₀ s) (nextSlot_lt _ _) hmem' hv (show vs.length ≤ k + s.cfg.slots by omega)

/-- A tick whose exchange failed ends without a write (42_scheduler R180). -/
theorem exec_tick_of_failure {s : State} (hseq : s.seq = .exch) (hdone : s.inp.t.busDone = true)
    (herr : s.inp.t.busErr = true) :
    exec .tick s = .next (completeTick (.busError (s.inp.t.busStatus % 2 ^ s.cfg.sw)) s) := by
  simp [exec, execTick, complete, answerOf, hseq, hdone, herr]

/-- Settles O25: the rotation is `ringWrites` read slot by slot, and a failed tick writes nothing. -/
theorem rotationLaw : Obligations.RotationLaw := by
  intro vs s hpos hmem
  refine ⟨ringWrites vs s, runOps_writes vs s, ringWrites_pos vs hpos,
    fun j v hv hj => readSlot_ringWrites_of_last_lap hpos hmem hv hj,
    fun a _ ha => readSlot_ringWrites_of_not_reached hpos hmem ha, fun hseq hdone herr => ?_⟩
  exact ⟨_, exec_tick_of_failure hseq hdone herr, by rw [completeTick_eq]; exact ⟨rfl, rfl⟩⟩

/-! ### An edge of `clk_c` (41_ring_buffer R143, R144, R148) -/

/-- Settles O37: SYNC and RD write registers the other does not read, and POS writes none. -/
theorem consumerEdgeIsSimultaneous : Obligations.ConsumerEdgeIsSimultaneous := by
  intro s c race
  refine ⟨_, clkCEdge_eq race c s, ?_⟩
  cases c.readPos <;> rfl

/-- A word of the crossing is the cursor code it holds (30_encoding R98). -/
theorem eq_cursor_of_decode_gray {aw code : Nat} {i : Instr}
    (h : decode aw { format := .gray, nbits := aw, value := code } = .ok i) : i = .cursor code := by
  obtain ⟨-, hfits⟩ := fits_of_decode h
  rw [decode_gray aw hfits] at h
  exact (Except.ok.inj h).symm

/-- CURSOR of the code the synchroniser draws is SYNC. -/
theorem exec_cursor_drawnCode {s : State} (hheld : s.grayHeld ≠ []) :
    exec (.cursor (drawnCode s)) s = exec .sync s := if_pos (drawnCode_mem hheld)

/-- An edge of `clk_c` runs its operations in order. -/
theorem clkCEdge_runs (race : Option Nat) (c : CIn) (s : State) :
    clkCEdge race c s =
      if c.readPos then
        andThen (exec .pos (sampleC race c s)) fun u => andThen (exec .sync u) (exec (.rd c.rdAddr))
      else andThen (exec .sync (sampleC race c s)) (exec (.rd c.rdAddr)) := by
  unfold clkCEdge consumerDomainOps
  rw [sampleC_inp]
  cases c.readPos <;> rfl

/-- Without POS the edge is the capture of the code drawn, as the operation CURSOR, and then RD. -/
theorem clkCEdge_runs_cursor {race : Option Nat} {c : CIn} {s : State} (hpos : c.readPos = false)
    (hheld : s.grayHeld ≠ []) :
    clkCEdge race c s =
      andThen (exec (.cursor (drawnCode (sampleC race c s))) (sampleC race c s)) (exec (.rd c.rdAddr)) := by
  have hcursor := exec_cursor_drawnCode (s := sampleC race c s) hheld
  rw [clkCEdge_runs, if_neg (by simp [hpos]), hcursor]

/-- Settles O35: the operations of the edge in order; without POS the first of them is CURSOR of the code drawn. -/
theorem stepRunsTheConsumerEdge : Obligations.StepRunsTheConsumerEdge := by
  refine ⟨fun s c rest hc hsched => ?_, fun s c rest i hc hsched hpos hheld hi => ?_⟩
  · rw [step_scheduled hc hsched]
    exact clkCEdge_runs none c _
  · rw [step_scheduled hc hsched, eq_cursor_of_decode_gray hi]
    exact clkCEdge_runs_cursor hpos hheld

/-! ### What one event does to the ring buffer -/

/-- An event as the edges it is made of, in the order they take effect (20_memory R72). -/
inductive EdgesOf (s u : State) : Event → Prop where
  | clkT (t : TIn) (hu : clkTEdge t s = .next u) : EdgesOf s u (.clkT t)
  | clkC (c : CIn) (hu : clkCEdge none c s = .next u) : EdgesOf s u (.clkC c)
  | tickFirst (t : TIn) (c : CIn) (m : State) (hm : clkTEdge t s = .next m)
      (hu : clkCEdge (writtenSlot (sampleT t s)) c m = .next u) : EdgesOf s u (.both t c true)
  | consumerFirst (t : TIn) (c : CIn) (m : State) (hm : clkCEdge (writtenSlot (sampleT t s)) c s = .next m)
      (hu : clkTEdge t m = .next u) : EdgesOf s u (.both t c false)
  | reset (hu : u = resetAll s) : EdgesOf s u .reset

theorem edgesOf_runEvent {e : Event} {s u : State} (hu : runEvent e s = .next u) : EdgesOf s u e := by
  cases e with
  | clkT t => exact .clkT t hu
  | clkC c => exact .clkC c hu
  | both t c tFirst =>
    cases tFirst with
    | true =>
      rw [runEvent, if_pos rfl, clkTEdge_eq, andThen_next] at hu
      exact .tickFirst t c _ (clkTEdge_eq t s) hu
    | false =>
      rw [runEvent, if_neg Bool.false_ne_true, clkCEdge_eq, andThen_next] at hu
      exact .consumerFirst t c _ (clkCEdge_eq _ c s) hu
  | reset => cases hu; exact .reset rfl

/-! What the environment brings and the parameters are not an edge's to change. -/

theorem clkTEdge_cfg_schedule {t : TIn} {s u : State} (hu : clkTEdge t s = .next u) :
    u.cfg = s.cfg ∧ u.schedule = s.schedule := by
  obtain ⟨v, hv, hcfg, -, -, hsched, -⟩ := runOps_answers (tickDomainOps (sampleT t s)) (clearPulses (sampleT t s))
  rw [clkTEdge, hv, andThen_next] at hu
  cases hu
  exact ⟨hcfg, hsched⟩

theorem clkCEdge_cfg_schedule {race : Option Nat} {c : CIn} {s u : State} (hu : clkCEdge race c s = .next u) :
    u.cfg = s.cfg ∧ u.schedule = s.schedule := by
  obtain ⟨v, hv, hcfg, -, -, hsched, -⟩ := runOps_answers (consumerDomainOps (sampleC race c s)) (sampleC race c s)
  rw [clkCEdge, hv] at hu
  cases hu
  exact ⟨hcfg, hsched⟩

theorem runEvent_cfg_schedule {e : Event} {s u : State} (hrun : runEvent e s = .next u) :
    u.cfg = s.cfg ∧ u.schedule = s.schedule := by
  cases edgesOf_runEvent hrun with
  | clkT t hu => exact clkTEdge_cfg_schedule hu
  | clkC c hu => exact clkCEdge_cfg_schedule hu
  | tickFirst t c m hm hu =>
    obtain ⟨hcfg, hsched⟩ := clkCEdge_cfg_schedule hu
    obtain ⟨hcfgm, hschedm⟩ := clkTEdge_cfg_schedule hm
    exact ⟨hcfg.trans hcfgm, hsched.trans hschedm⟩
  | consumerFirst t c m hm hu =>
    obtain ⟨hcfg, hsched⟩ := clkTEdge_cfg_schedule hu
    obtain ⟨hcfgm, hschedm⟩ := clkCEdge_cfg_schedule hm
    exact ⟨hcfg.trans hcfgm, hsched.trans hschedm⟩
  | reset hu => subst hu; exact ⟨rfl, rfl⟩

/-- Two states with one ring buffer: the ring, its cursor and the cursor's way to the consumer agree. -/
structure SameBuffer (s t : State) : Prop where
  cfg : t.cfg = s.cfg
  mem : t.mem = s.mem
  pos : t.pos = s.pos
  posGray : t.posGray = s.posGray
  held : t.grayHeld = s.grayHeld
  sync1 : t.sync1 = s.sync1
  sync2 : t.sync2 = s.sync2

/-- The WRITE of an edge of `clk_t`, where it makes one (41_ring_buffer R140). -/
def tickWrite (t : TIn) (s : State) : State :=
  if (writtenSlot (sampleT t s)).isSome then ringWrite (sampleOf t.busRx1 t.busRx2) s else s

section
variable {s u : State} {t : TIn} {c : CIn} {race : Option Nat}

theorem tickWrite_of_not_written (h : writtenSlot (sampleT t s) = none) : tickWrite t s = s := by
  rw [tickWrite, h]
  rfl

/-- The end of a tick writes the ring exactly where the edge writes a slot. -/
theorem completionPart_sameBuffer (t : TIn) (s : State) :
    SameBuffer (tickWrite t s) (completionPart (sampleT t s) (clearPulses (sampleT t s))) := by
  unfold tickWrite writtenSlot completionPart answerOf
  cases complete (sampleT t s) with
  | false => exact ⟨rfl, rfl, rfl, rfl, rfl, rfl, rfl⟩
  | true =>
    rw [sampleT_inp]
    cases t.busErr <;> rw [if_pos rfl, completeTick_eq] <;> exact ⟨rfl, rfl, rfl, rfl, rfl, rfl, rfl⟩

/-- To the ring buffer an edge of `clk_t` is its WRITE, or nothing. -/
theorem clkTEdge_sameBuffer (hu : clkTEdge t s = .next u) : SameBuffer (tickWrite t s) u := by
  rw [clkTEdge_eq, Host.Outcome.next.injEq] at hu
  obtain ⟨_, _, _, hfiring⟩ := firingPart_frame (sampleT t s)
    (commandPart (sampleT t s) (completionPart (sampleT t s) (clearPulses (sampleT t s))))
  obtain ⟨_, _, _, _, _, hcommand⟩ := commandPart_frame (sampleT t s)
    (completionPart (sampleT t s) (clearPulses (sampleT t s)))
  rw [hfiring, hcommand] at hu
  subst hu
  exact { completionPart_sameBuffer t s with }

/-- To the ring buffer an edge of `clk_c` is the capture of the code drawn. -/
theorem clkCEdge_sameBuffer (hu : clkCEdge race c s = .next u) :
    SameBuffer (syncCapture (drawnCode (sampleC race c s)) s) u := by
  rw [clkCEdge_eq, Host.Outcome.next.injEq] at hu
  subst hu
  cases c.readPos <;> exact ⟨rfl, rfl, rfl, rfl, rfl, rfl, rfl⟩

/-! ### The order of the crossing (41_ring_buffer R145, R147, 20_memory R70) -/

variable {h w a b : Nat}

theorem crossing_of_sameBuffer (hs : SameBuffer s u) (x : Crossing s h w a b) : Crossing u h w a b where
  order_ba := x.order_ba
  order_ah := x.order_ah
  order_hw := x.order_hw
  pos := by rw [hs.pos, hs.cfg, x.pos]
  posGray := by rw [hs.posGray, hs.cfg, x.posGray]
  held := by rw [hs.held, hs.cfg, x.held]
  sync1 := by rw [hs.sync1, hs.cfg, x.sync1]
  sync2 := by rw [hs.sync2, hs.cfg, x.sync2]

/-- A write is one more in the count, and its code the last of those held. -/
theorem crossing_ringWrite (v : Sample) (x : Crossing s h w a b) : Crossing (ringWrite v s) h (w + 1) a b := by
  have hnext : nextSlot s.cfg s.pos = (w + 1) % s.cfg.slots := by rw [nextSlot, x.pos, Nat.mod_add_mod]
  have hrange : List.range (w + 1 + 1 - h) = List.range (w + 1 - h) ++ [w + 1 - h] := by
    rw [← List.range_succ, Nat.succ_sub (Nat.le_succ_of_le x.order_hw)]
  exact
    { x with
      order_hw := Nat.le_succ_of_le x.order_hw
      pos := hnext
      posGray := congrArg bin2gray hnext
      held := by
        have hlast : h + (w + 1 - h) = w + 1 := Nat.add_sub_cancel' (Nat.le_succ_of_le x.order_hw)
        rw [ringWrite_grayHeld, hnext, x.held, hrange, List.map_append, List.map_singleton, hlast]
        rfl }

/-- A capture of a code held moves `sync1`'s count to `sync2` and takes a count from `h` to `w`. -/
theorem crossing_syncCapture {code : Nat} (hcode : code ∈ s.grayHeld) (x : Crossing s h w a b) :
    ∃ a', a ≤ a' ∧ Crossing (syncCapture code s) w w a' a := by
  rw [x.held, List.mem_map] at hcode
  obtain ⟨i, hi, rfl⟩ := hcode
  rw [List.mem_range] at hi
  have hle := x.order_ah
  refine ⟨h + i, by omega, ?_⟩
  exact
    { order_ba := by omega
      order_ah := by omega
      order_hw := le_rfl
      pos := x.pos
      posGray := x.posGray
      held := by
        rw [Nat.add_sub_cancel_left]
        exact congrArg (fun g => [g]) x.posGray
      sync1 := rfl
      sync2 := x.sync1 }

/-- The newest code is always held. -/
theorem crossing_held_ne_nil (x : Crossing s h w a b) : s.grayHeld ≠ [] := by
  have hlt : 0 < w + 1 - h := Nat.sub_pos_of_lt (Nat.lt_succ_of_le x.order_hw)
  rw [x.held, Ne, List.map_eq_nil_iff, List.range_eq_nil]
  exact hlt.ne'

/-- `pos_c` is the position at `sync2`'s count. -/
theorem crossing_posC_eq (x : Crossing s h w a b) : posC s = b % s.cfg.slots := by
  rw [posC, x.sync2]
  exact gray2bin_bin2gray (Nat.mod_lt _ (slots_pos s.cfg))

/-- An edge of `clk_t` moves the count of writes alone. -/
theorem crossing_clkTEdge (x : Crossing s h w a b) (hu : clkTEdge t s = .next u) :
    ∃ w', w ≤ w' ∧ w' ≤ w + 1 ∧ Crossing u h w' a b := by
  have hbuffer := clkTEdge_sameBuffer hu
  unfold tickWrite at hbuffer
  split at hbuffer
  · exact ⟨w + 1, Nat.le_succ w, le_rfl, crossing_of_sameBuffer hbuffer (crossing_ringWrite _ x)⟩
  · exact ⟨w, le_rfl, Nat.le_succ w, crossing_of_sameBuffer hbuffer x⟩

/-- An edge of `clk_c` moves the synchroniser one stage on. -/
theorem crossing_clkCEdge (x : Crossing s h w a b) (hu : clkCEdge race c s = .next u) :
    ∃ a', a ≤ a' ∧ Crossing u w w a' a := by
  have hheld := crossing_held_ne_nil x
  have hdrawn : drawnCode (sampleC race c s) ∈ s.grayHeld := drawnCode_mem (s := sampleC race c s) hheld
  obtain ⟨a', ha, x'⟩ := crossing_syncCapture hdrawn x
  exact ⟨a', ha, crossing_of_sameBuffer (clkCEdge_sameBuffer hu) x'⟩

/-- Every event but a reset keeps the order of the crossing, with every count growing or staying. -/
theorem crossing_runEvent {e : Event} (x : Crossing s h w a b) (he : e ≠ .reset) (hrun : runEvent e s = .next u) :
    ∃ h' w' a' b', Crossing u h' w' a' b' ∧ h ≤ h' ∧ w ≤ w' ∧ w' ≤ w + 1 ∧ a ≤ a' ∧ b ≤ b' ∧ b' ≤ a := by
  have hba := x.order_ba
  have hhw := x.order_hw
  cases edgesOf_runEvent hrun with
  | clkT t hu =>
    obtain ⟨w', hlo, hhi, x'⟩ := crossing_clkTEdge x hu
    exact ⟨h, w', a, b, x', le_rfl, hlo, hhi, le_rfl, le_rfl, hba⟩
  | clkC c hu =>
    obtain ⟨a', ha, x'⟩ := crossing_clkCEdge x hu
    exact ⟨w, w, a', a, x', hhw, le_rfl, Nat.le_succ w, ha, hba, le_rfl⟩
  | tickFirst t c m hm hu =>
    obtain ⟨w', hlo, hhi, xm⟩ := crossing_clkTEdge x hm
    obtain ⟨a', ha, x'⟩ := crossing_clkCEdge xm hu
    exact ⟨w', w', a', a, x', hhw.trans hlo, hlo, hhi, ha, hba, le_rfl⟩
  | consumerFirst t c m hm hu =>
    obtain ⟨a', ha, xm⟩ := crossing_clkCEdge x hm
    obtain ⟨w', hlo, hhi, x'⟩ := crossing_clkTEdge xm hu
    exact ⟨w, w', a', a, x', hhw, hlo, hhi, ha, hba, le_rfl⟩
  | reset hu => exact absurd rfl he

end

/-- Settles O56: a step is an event, and every event but a reset keeps the order. -/
theorem crossingKeepsTheOrder : Obligations.CrossingKeepsTheOrder := by
  intro s t h w a b hc x he ht
  rw [step, if_pos hc] at ht
  have xtaken : Crossing (takeEvent s) h w a b := { x with }
  obtain ⟨h', w', a', b', x', hh, hw, hw', ha, hb, hb'⟩ := crossing_runEvent xtaken he ht
  obtain ⟨hcfg, -⟩ := runEvent_cfg_schedule ht
  have hpos : posC t = b' % s.cfg.slots := by rw [crossing_posC_eq x', hcfg, takeEvent_cfg]
  exact ⟨h', w', a', b', x', hh, hw, hw', ha, hb, hb', hpos⟩

/-! ### The staleness bound (41_ring_buffer R146) -/

/-- `n` edges of `clk_c` since the last write: the first leaves one code to draw from, the second draws it into `sync1`,
the third moves it to `sync2`. -/
structure Settled (n : Nat) (s : State) : Prop where
  held : 1 ≤ n → s.grayHeld = [s.posGray]
  sync1 : 2 ≤ n → s.sync1 = s.posGray
  sync2 : 3 ≤ n → s.sync2 = s.posGray

theorem settled_zero (s : State) : Settled 0 s := ⟨by omega, by omega, by omega⟩

section
variable {s u : State} {t : TIn} {c : CIn} {race : Option Nat} {n : Nat}

theorem settled_of_sameBuffer (hs : SameBuffer s u) (x : Settled n s) : Settled n u where
  held := by rw [hs.held, hs.posGray]; exact x.held
  sync1 := by rw [hs.sync1, hs.posGray]; exact x.sync1
  sync2 := by rw [hs.sync2, hs.posGray]; exact x.sync2

/-- An edge of `clk_t` without a write leaves the crossing as it is. -/
theorem settled_clkTEdge (x : Settled n s) (hno : writtenSlot (sampleT t s) = none) (hu : clkTEdge t s = .next u) :
    Settled n u ∧ u.pos = s.pos := by
  have hbuffer := clkTEdge_sameBuffer hu
  rw [tickWrite_of_not_written hno] at hbuffer
  exact ⟨settled_of_sameBuffer hbuffer x, hbuffer.pos⟩

/-- Each edge of `clk_c` settles one stage more, whatever is drawn. -/
theorem settled_clkCEdge (x : Settled n s) (hu : clkCEdge race c s = .next u) :
    Settled (n + 1) u ∧ u.pos = s.pos := by
  have hbuffer := clkCEdge_sameBuffer hu
  have hcaptured : Settled (n + 1) (syncCapture (drawnCode (sampleC race c s)) s) :=
    { held := fun _ => rfl
      sync1 := fun hn => drawnCode_single (s := sampleC race c s) (x.held (by omega))
      sync2 := fun hn => x.sync1 (by omega) }
  exact ⟨settled_of_sameBuffer hbuffer hcaptured, hbuffer.pos⟩

/-- An event with an edge of `clk_t` that writes no sample writes no slot. -/
theorem writtenSlot_of_writtenBy_nil {e : Event} (ht : tickInputs e = some t) (hno : writtenBy s e = []) :
    writtenSlot (sampleT t s) = none := by
  simpa [writtenBy, ht] using hno

/-- An event without a write settles as many stages as it has edges of `clk_c`. -/
theorem settled_runEvent {e : Event} (x : Settled n s) (he : noReset e = true) (hno : writtenBy s e = [])
    (hrun : runEvent e s = .next u) : Settled (n + if hasConsumerEdge e then 1 else 0) u ∧ u.pos = s.pos := by
  cases edgesOf_runEvent hrun with
  | clkT t hu => exact settled_clkTEdge x (writtenSlot_of_writtenBy_nil rfl hno) hu
  | clkC c hu => exact settled_clkCEdge x hu
  | tickFirst t c m hm hu =>
    obtain ⟨xm, hposm⟩ := settled_clkTEdge x (writtenSlot_of_writtenBy_nil rfl hno) hm
    obtain ⟨x', hpos⟩ := settled_clkCEdge xm hu
    exact ⟨x', hpos.trans hposm⟩
  | consumerFirst t c m hm hu =>
    obtain ⟨xm, hposm⟩ := settled_clkCEdge x hm
    have hnom := (writtenSlot_of_sameTickDomain t (clkCEdge_sameTickDomain hm)).trans
      (writtenSlot_of_writtenBy_nil rfl hno)
    obtain ⟨x', hpos⟩ := settled_clkTEdge xm hnom hu
    exact ⟨x', hpos.trans hposm⟩
  | reset hu => cases he

end

/-- The premise on a run holds of the run after its first step. -/
theorem noWriteOnRun_tail {e : Event} {es : List Event} {s u : State} (h : NoWriteOnRun s (e :: es))
    (hu : step s = .next u) : NoWriteOnRun u es := by
  intro n f v hf hv
  exact h (n + 1) f v hf (by rw [runFor_succ, hu, andThen_next]; exact hv)

/-- A run without a write settles as many stages as it has edges of `clk_c`. -/
theorem settled_runFor {n : Nat} {es rest : List Event} {s : State} (x : Settled n s) (hinv : Inv s)
    (hsched : s.schedule = es ++ rest) (hno : NoWriteOnRun s es) :
    ∃ t, runFor es.length s = .next t ∧ Inv t ∧ t.pos = s.pos ∧ Settled (n + es.countP hasConsumerEdge) t := by
  induction es generalizing n s with
  | nil => exact ⟨s, rfl, hinv, rfl, x⟩
  | cons e es ih =>
    obtain ⟨hreset, hwritten⟩ := hno 0 e s rfl rfl
    obtain ⟨u, hu⟩ := step_answers hinv.cfg
    have hevent := hu
    rw [step_scheduled hinv.cfg hsched] at hevent
    have xtaken : Settled n { s with schedule := es ++ rest, edges := s.edges + 1 } := { x with }
    obtain ⟨-, hschedu⟩ := runEvent_cfg_schedule hevent
    obtain ⟨xu, hposu⟩ := settled_runEvent xtaken hreset hwritten hevent
    obtain ⟨t, ht, hinvt, hpost, xt⟩ :=
      ih xu (stepKeepsTheInvariant s u hinv hu) hschedu (noWriteOnRun_tail hno hu)
    refine ⟨t, by rw [List.length_cons, runFor_succ, hu, andThen_next, ht], hinvt, hpost.trans hposu, ?_⟩
    rwa [List.countP_cons, Nat.add_comm (es.countP hasConsumerEdge), ← Nat.add_assoc]

/-- With all three stages settled the consumer sees the cursor. -/
theorem settled_posC_eq {n : Nat} {s : State} (x : Settled n s) (hn : 3 ≤ n) (hinv : Inv s) : posC s = s.pos := by
  rw [posC, x.sync2 hn, hinv.consistent.i3]
  exact gray2bin_bin2gray hinv.widths.pos

/-- Settles O57: three edges of `clk_c` settle all three stages. -/
theorem cursorSettlesInThreeEdges : Obligations.CursorSettlesInThreeEdges := by
  intro es rest s hinv hsched hno hcount
  obtain ⟨t, ht, hinvt, hpos, x⟩ := settled_runFor (settled_zero s) hinv hsched hno
  exact ⟨t, ht, hpos, (settled_posC_eq x (by omega) hinvt).trans hpos⟩

end Sys2Proof.Machine
end

-- ==== Proofs of 42_scheduler: the operations, the edge of clk_t as simultaneous assignments, the schedule over runs ====
section
/-! The statements drawn from 42_scheduler. First the operations one by one, then the edge of `clk_t` as one assignment
of every register, then what an event and a run are to the tick domain. The schedule is read off that: the timer after
the `j`-th edge of `clk_t`, whatever edges of `clk_c` lie between. -/

namespace Sys2Proof.Machine

open Sys2Proof.Safety

/-! ### The operations (42_scheduler R172, R173) -/

section
variable {p s u : State}

theorem exec_start_of_ready (h : s.stopPend = false) : exec .start s = .next (startAccepted s) := by
  simp [exec, execStart, ctlReady, h]

theorem exec_stop_of_ready (h : s.stopPend = false) : exec .stop s = .next (stopAccepted s) := by
  simp [exec, execStop, ctlReady, h]

theorem exec_start_of_pending (h : s.stopPend = true) : exec .start s = .next s := by
  simp [exec, execStart, ctlReady, h]

theorem exec_stop_of_pending (h : s.stopPend = true) : exec .stop s = .next s := by
  simp [exec, execStop, ctlReady, h]

theorem startAccepted_of_idle (h : s.run = .idle) :
    startAccepted s = if s.inp.t.tbOk then respond 0#1 (arm s) else respond 1#1 s := by
  simp [startAccepted, h]

theorem startAccepted_of_running (h : s.run = .running) : startAccepted s = respond 0#1 s := by
  simp [startAccepted, h]

theorem stopAccepted_of_idle (h : s.run = .idle) : stopAccepted s = respond 0#1 s := by
  simp [stopAccepted, h]

theorem stopAccepted_of_running (h : s.run = .running) :
    stopAccepted s = if inFlight s then deferStop (disarm s) else respond 0#1 (disarm s) := by
  simp [stopAccepted, h]

/-- A tick is in flight and does not end at this edge: the phase is EXCH and no answer is there. -/
theorem inFlight_iff : inFlight s = true ↔ s.seq = .exch ∧ s.inp.t.busDone = false := by
  simp +contextual [inFlight, complete]

end

/-- Settles O12: the three cases of an accepted START, and the STOP pending that refuses it. -/
theorem startOperation : Obligations.StartOperation := by
  intro s
  refine ⟨fun hready hidle htb => ?arms, fun hready hidle htb => ?fails, fun hready hrun => ?running,
    exec_start_of_pending⟩
  case arms =>
    rw [exec_start_of_ready hready, startAccepted_of_idle hidle, if_pos htb]
    rfl
  case fails =>
    rw [exec_start_of_ready hready, startAccepted_of_idle hidle, if_neg (by simp [htb])]
    rfl
  case running =>
    rw [exec_start_of_ready hready, startAccepted_of_running hrun]
    rfl

/-- Settles O13: the three cases of an accepted STOP, and the STOP pending that refuses it. -/
theorem stopOperation : Obligations.StopOperation := by
  intro s
  refine ⟨fun hready hidle => ?idle, fun hready hrun hends => ?answered, fun hready hrun hexch hdone => ?deferred,
    exec_stop_of_pending⟩
  case idle =>
    rw [exec_stop_of_ready hready, stopAccepted_of_idle hidle]
    rfl
  case answered =>
    have hfly : ¬ inFlight s = true := by
      rw [inFlight_iff]
      rintro ⟨hexch, hdone⟩
      rcases hends with hwait | hend
      · cases hwait.symm.trans hexch
      · cases hdone.symm.trans hend
    rw [exec_stop_of_ready hready, stopAccepted_of_running hrun, if_neg hfly]
    rfl
  case deferred =>
    rw [exec_stop_of_ready hready, stopAccepted_of_running hrun, if_pos (inFlight_iff.mpr ⟨hexch, hdone⟩)]
    rfl

/-- A response changes no register but the response pair. -/
theorem registers_respond (code : CodeBit) (s : State) :
    registers (respond code s) = { registers s with ctlRespValid := true, ctlErr := code } := rfl

/-- Settles O14: both commands are a response where they find the timer as they would leave it; a STOP that finds its
own answer pending is nothing at all. -/
theorem startAndStopAreIdempotent : Obligations.StartAndStopAreIdempotent := by
  intro s
  constructor
  · intro hrun hready
    exact ⟨respond 0#1 s, by rw [exec_start_of_ready hready, startAccepted_of_running hrun], registers_respond _ _⟩
  · intro hidle
    cases hpend : s.stopPend with
    | true => exact ⟨s, exec_stop_of_pending hpend, rfl⟩
    | false =>
      exact ⟨respond 0#1 s, by rw [exec_stop_of_ready hpend, stopAccepted_of_idle hidle], registers_respond _ _⟩

/-! ### TICK (42_scheduler R174 to R180) -/

section
variable {p s : State}

theorem isStop_iff :
    isStop p = true ↔ p.inp.t.ctlValid = true ∧ p.stopPend = false ∧ p.inp.t.ctlOp = 0#1 := by
  simp [isStop, accept, ctlReady, and_assoc]

theorem complete_iff : complete p = true ↔ p.seq = .exch ∧ p.inp.t.busDone = true := by
  simp [complete]

theorem fire_of_exch (h : s.seq = .exch) : fire s = false := by simp [fire, h]

theorem fire_of_idle (h : s.run = .idle) : fire s = false := by simp [fire, pending, h]

theorem fire_of_isStop (h : isStop s = true) : fire s = false := by simp [fire, h]

theorem complete_of_wait (h : s.seq = .wait) : complete s = false := by simp [complete, h]

/-- A tick starts in phase WAIT, where none can end. -/
theorem complete_of_fire (h : fire p = true) : complete p = false := by
  obtain ⟨-, -, hwait, -⟩ := fire_iff.mp h
  exact complete_of_wait hwait

theorem exec_tick_of_fire (h : fire s = true) : exec .tick s = .next (enterTick s) := by
  simp [exec, execTick, complete_of_fire h, h]

theorem exec_tick_of_complete (h : complete s = true) : exec .tick s = .next (completeTick (answerOf s) s) := by
  simp [exec, execTick, h]

theorem exec_tick_of_wait (hc : complete s = false) (hf : fire s = false) : exec .tick s = .next s := by
  simp [exec, execTick, hc, hf]

end

/-- Settles O16: the fire condition holds, and the start of a tick is the request and the phase. -/
theorem tickFires : Obligations.TickFires := by
  intro s hrun hwait hreached hstop
  have hfire : fire s = true :=
    fire_iff.mpr ⟨hrun, hreached, hwait, Bool.eq_false_iff.mpr fun h => hstop (isStop_iff.mp h)⟩
  rw [exec_tick_of_fire hfire, enterTick, beginExchange_eq]

/-- Settles O17: the end of a tick with the bytes of the answer. -/
theorem tickCompletesWithSample : Obligations.TickCompletesWithSample := by
  intro s hexch hdone herr
  have hanswer : answerOf s = .bytes s.inp.t.busRx0 s.inp.t.busRx1 s.inp.t.busRx2 := by simp [answerOf, herr]
  rw [exec_tick_of_complete (complete_iff.mpr ⟨hexch, hdone⟩), hanswer, completeTick_bytes]
  rfl

/-- Settles O18: the end of a tick with a BusError, which writes no sample. -/
theorem failedTickWritesNothing : Obligations.FailedTickWritesNothing := by
  intro s hexch hdone herr
  rw [exec_tick_of_failure hexch hdone herr, completeTick_eq]
  rfl

/-- Settles O19: in each case of the wait the tick neither ends nor starts. -/
theorem tickWaits : Obligations.TickWaits := by
  intro s hwaits
  refine exec_tick_of_wait ?_ ?_ <;> rw [Bool.eq_false_iff]
  · rw [Ne, complete_iff]
    rintro ⟨hexch, hdone⟩
    rcases hwaits with ⟨-, hnot⟩ | ⟨hwait, -⟩
    · cases hnot.symm.trans hdone
    · cases hwait.symm.trans hexch
  · rw [Ne, fire_iff]
    rintro ⟨hrun, hreached, hwait, -⟩
    rcases hwaits with ⟨hexch, -⟩ | ⟨-, hidle | hnot⟩
    · cases hwait.symm.trans hexch
    · cases hrun.symm.trans hidle
    · cases hreached.symm.trans hnot

/-! ### The edge of `clk_t` as one assignment of every register (42_scheduler R170) -/

section
variable {p s : State}

/-- Once a completion has been served, a tick is in flight exactly where one was that does not end at this edge. -/
theorem inFlight_completionPart (hseq : s.seq = p.seq) (hinp : s.inp = p.inp) :
    inFlight (completionPart p s) = inFlight p := by
  unfold completionPart
  cases hc : complete p with
  | true => simp [completeTick_eq, inFlight, hc]
  | false => simp [inFlight, complete, hseq, hinp]

/-- What the end of a tick assigns: the ring where the edge writes a slot, the deadline, the phase, and the answer to a
deferred STOP (`registers_completionPart`). -/
def completionAssigns (p : State) (r : Registers) : Registers :=
  { r with
    mem := if (writtenSlot p).isSome then
        Memory.write p.cfg.memInit r.mem r.pos (sampleOf p.inp.t.busRx1 p.inp.t.busRx2)
      else r.mem
    pos := if (writtenSlot p).isSome then nextSlot p.cfg r.pos else r.pos
    posGray := if (writtenSlot p).isSome then bin2gray (nextSlot p.cfg r.pos) else r.posGray
    deadline := if complete p then timeAfter p.cfg r.deadline p.cfg.period else r.deadline
    seq := if complete p then .wait else r.seq
    stopPend := if complete p then false else r.stopPend
    ctlRespValid := complete p && r.stopPend || r.ctlRespValid
    ctlErr := if complete p && r.stopPend then 0#1 else r.ctlErr }

/-- What a command assigns: the timer, a STOP deferred, and the response (`registers_commandPart`). -/
def commandAssigns (p : State) (r : Registers) : Registers :=
  { r with
    run := if isStop p then .idle else if startsFromIdle p && p.inp.t.tbOk then .running else r.run
    deadline := if startsFromIdle p && p.inp.t.tbOk then timeAfter p.cfg r.now p.cfg.period else r.deadline
    stopPend := if isStop p && decide (p.run = .running) && inFlight p then true else r.stopPend
    ctlRespValid := isStart p || isStop p && !(decide (p.run = .running) && inFlight p) || r.ctlRespValid
    ctlErr := if startsFromIdle p && !p.inp.t.tbOk then 1#1
      else if isStart p || isStop p && !(decide (p.run = .running) && inFlight p) then 0#1
      else r.ctlErr }

/-- What the start of a tick assigns: the phase and the request (`registers_firingPart`). -/
def firingAssigns (p : State) (r : Registers) : Registers :=
  { r with seq := if fire p then .exch else r.seq, busReq := fire p || r.busReq }

theorem registers_completionPart (hcfg : s.cfg = p.cfg) :
    registers (completionPart p s) = completionAssigns p (registers s) := by
  unfold completionPart completionAssigns writtenSlot answerOf
  rw [← hcfg]
  cases complete p with
  | false => rfl
  | true => cases p.inp.t.busErr <;> rw [if_pos rfl, completeTick_eq] <;> rfl

/-- A command is accepted as START or as STOP, never as both. -/
theorem isStop_of_isStart (h : isStart p = true) : isStop p = false := by
  obtain ⟨-, -, hop⟩ := isStart_iff.mp h
  simp [isStop, hop]

/-- The command finds the timer, the inputs and the tick in flight as the edge `p` found them. -/
theorem registers_commandPart (hcfg : s.cfg = p.cfg) (hrun : s.run = p.run) (hinp : s.inp = p.inp)
    (hfly : inFlight s = inFlight p) :
    registers (commandPart p s) = commandAssigns p (registers s) := by
  rw [commandAssigns, startsFromIdle, ← hrun, ← hinp, ← hfly, ← hcfg]
  clear hrun hinp hfly hcfg
  unfold commandPart
  cases hstart : isStart p with
  | true =>
    rw [isStop_of_isStart hstart, if_pos rfl]
    rcases startAccepted_cases s with ⟨hrun, e⟩ | ⟨hidle, htb, e⟩ | ⟨hidle, htb, e⟩
    · simp [e, registers, hrun]
    · simp [e, registers, hidle, htb]
    · simp [e, registers, hidle, htb]
  | false =>
    rw [if_neg Bool.false_ne_true]
    cases isStop p with
    | true =>
      rw [if_pos rfl]
      rcases stopAccepted_cases s with ⟨hidle, e⟩ | ⟨hrun, htick, e⟩ | ⟨hrun, htick, e⟩
      · simp [e, registers, hidle]
      · simp [e, registers, hrun, htick]
      · simp [e, registers, hrun, htick]
    | false => rfl

theorem registers_firingPart (p s : State) : registers (firingPart p s) = firingAssigns p (registers s) := by
  unfold firingPart firingAssigns
  cases fire p <;> rfl

/-- The assignments of the parts, one after the other, are the simultaneous ones: the later part wins. -/
theorem assigns_eq_tickDomainNext (p : State) :
    { firingAssigns p (commandAssigns p (completionAssigns p (registers (clearPulses p)))) with
      now := timeAfter p.cfg p.now 1 } = tickDomainNext p := by
  refine (Registers.mk.injEq ..).mpr
    ⟨rfl, rfl, rfl, rfl, rfl, Bool.or_false _, ?valid, ?err, rfl, rfl, rfl, rfl, rfl, rfl⟩
  case valid => simp [firingAssigns, commandAssigns, completionAssigns, registers, stopAnswered, Bool.or_assoc]
  case err => simp [firingAssigns, commandAssigns, completionAssigns, registers, stopAnswered, ite_or]

/-- The count of `now` on top of the parts of the edge `p`, which leave `now` alone. -/
theorem registers_countTime {r : Registers} (hr : registers s = r) (hcfg : s.cfg = p.cfg) (hnow : r.now = p.now) :
    registers (countTime s) = { r with now := timeAfter p.cfg p.now 1 } := by
  subst hr
  rw [← hcfg, ← hnow]
  rfl

/-- ONE EDGE OF `clk_t` AS ONE ASSIGNMENT. -/
theorem registers_clkTEdge {t : TIn} {u : State} (hu : clkTEdge t s = .next u) :
    registers u = tickDomainNext (sampleT t s) := by
  obtain ⟨hcfg, -, -⟩ := clkTEdge_frame hu
  rw [clkTEdge_eq, Host.Outcome.next.injEq] at hu
  subst hu
  have hcompleted := registers_completionPart (p := sampleT t s) (s := clearPulses (sampleT t s)) rfl
  have hcommanded := registers_commandPart (p := sampleT t s)
    (s := completionPart (sampleT t s) (clearPulses (sampleT t s)))
    completionPart_cfg completionPart_run completionPart_inp (inFlight_completionPart (p := sampleT t s) rfl rfl)
  have hfired := registers_firingPart (sampleT t s)
    (commandPart (sampleT t s) (completionPart (sampleT t s) (clearPulses (sampleT t s))))
  rw [hcommanded, hcompleted] at hfired
  rw [registers_countTime (p := sampleT t s) hfired hcfg rfl, assigns_eq_tickDomainNext]

end

/-- Settles O36: the parts' assignments in order are the simultaneous ones. -/
theorem tickEdgeIsSimultaneous : Obligations.TickEdgeIsSimultaneous :=
  fun s t => ⟨_, clkTEdge_eq t s, registers_clkTEdge (clkTEdge_eq t s)⟩

/-! ### What one edge of `clk_t` does (42_scheduler R174, R184) -/

section
variable {s u : State} {t : TIn}

/-! The simultaneous assignments, register by register. -/

theorem clkTEdge_run (hu : clkTEdge t s = .next u) :
    u.run = if isStop (sampleT t s) then .idle
      else if isStart (sampleT t s) && decide (s.run = .idle) && t.tbOk then .running else s.run :=
  congrArg Registers.run (registers_clkTEdge hu)

theorem clkTEdge_seq (hu : clkTEdge t s = .next u) :
    u.seq = if fire (sampleT t s) then .exch else if complete (sampleT t s) then .wait else s.seq :=
  congrArg Registers.seq (registers_clkTEdge hu)

theorem clkTEdge_stopPend (hu : clkTEdge t s = .next u) :
    u.stopPend = if isStop (sampleT t s) && decide (s.run = .running) && inFlight (sampleT t s) then true
      else if complete (sampleT t s) then false else s.stopPend :=
  congrArg Registers.stopPend (registers_clkTEdge hu)

theorem clkTEdge_busReq (hu : clkTEdge t s = .next u) : u.busReq = fire (sampleT t s) :=
  congrArg Registers.busReq (registers_clkTEdge hu)

theorem clkTEdge_now (hu : clkTEdge t s = .next u) : u.now = (s.now + 1) % 2 ^ s.cfg.tw :=
  congrArg Registers.now (registers_clkTEdge hu)

theorem clkTEdge_deadline (hu : clkTEdge t s = .next u) :
    u.deadline = if isStart (sampleT t s) && decide (s.run = .idle) && t.tbOk then
        (s.now + s.cfg.period) % 2 ^ s.cfg.tw
      else if complete (sampleT t s) then (s.deadline + s.cfg.period) % 2 ^ s.cfg.tw else s.deadline :=
  congrArg Registers.deadline (registers_clkTEdge hu)

/-! The conditions of an edge, by the registers and the inputs. -/

theorem fire_sampleT_iff : fire (sampleT t s) = true ↔
    s.run = .running ∧ reached s.cfg.tw s.now s.deadline = true ∧ s.seq = .wait ∧ isStop (sampleT t s) = false :=
  fire_iff

theorem isStart_of_pending (h : s.stopPend = true) : isStart s = false := by simp [isStart, accept, ctlReady, h]

theorem isStop_of_pending (h : s.stopPend = true) : isStop s = false := by simp [isStop, accept, ctlReady, h]

theorem isStart_of_isStop (h : isStop s = true) : isStart s = false := by
  rw [← Bool.not_eq_true]
  exact fun hstart => by simp [isStop_of_isStart hstart] at h

/-- An edge that answers a STOP takes no START. -/
theorem isStart_of_stopAnswered (h : stopAnswered s = true) : isStart s = false := by
  rw [stopAnswered, Bool.or_eq_true, Bool.and_eq_true, Bool.and_eq_true] at h
  rcases h with ⟨hstop, -⟩ | ⟨-, hpend⟩
  · exact isStart_of_isStop hstop
  · exact isStart_of_pending hpend

/-- An edge that answers a STOP brings the response pulse with code 0. -/
theorem clkTEdge_response (hu : clkTEdge t s = .next u) (h : stopAnswered (sampleT t s) = true) :
    u.ctlRespValid = true ∧ u.ctlErr = 0#1 := by
  have hstart := isStart_of_stopAnswered h
  have hvalid := congrArg Registers.ctlRespValid (registers_clkTEdge hu)
  have herr := congrArg Registers.ctlErr (registers_clkTEdge hu)
  simp only [registers, tickDomainNext, startsFromIdle, h, hstart] at hvalid herr
  exact ⟨hvalid, herr⟩

end

/-- Settles O40: the request is the fire condition, and without a fire a tick in flight was so before. -/
theorem requestPulseExactlyAfterAFire : Obligations.RequestPulseExactlyAfterAFire := by
  intro s u t hu
  rw [clkTEdge_busReq hu, clkTEdge_seq hu]
  refine ⟨?_, fun hfire => if_pos hfire, fun hwait hexch => ?_⟩
  · rw [fire_sampleT_iff, Bool.eq_false_iff, Ne, isStop_iff, reached, decide_eq_true_iff]
    tauto
  · by_contra hnot
    rw [if_neg hnot, complete_of_wait (s := sampleT t s) hwait, if_neg Bool.false_ne_true, hwait] at hexch
    cases hexch

/-- Settles O38: the fire and completion conditions in each of the four states. -/
theorem stateTransitions : Obligations.StateTransitions := by
  intro s u t hcons hu
  rw [clkTEdge_run hu, clkTEdge_seq hu, clkTEdge_stopPend hu]
  refine ⟨fun hidle hwait => ?_, fun hrun hwait => ?_, fun hrun hexch => ?_, fun hidle hexch => ?_⟩
  · have hfire := fire_of_idle (s := sampleT t s) hidle
    have hcomplete := complete_of_wait (s := sampleT t s) hwait
    cases hstop : isStop (sampleT t s) with
    | true => simp [hwait, hfire, hcomplete, isStart_of_isStop hstop]
    | false => simp [hidle, hwait, hfire, hcomplete]
  · have hcomplete := complete_of_wait (s := sampleT t s) hwait
    cases hstop : isStop (sampleT t s) with
    | true => simp [hwait, hcomplete, fire_of_isStop hstop]
    | false =>
      cases hreached : reached s.cfg.tw s.now s.deadline <;>
        simp [hrun, hwait, hcomplete, hstop, fire, pending, hreached]
  · have hfire := fire_of_exch (s := sampleT t s) hexch
    cases hdone : t.busDone <;> cases hstop : isStop (sampleT t s) <;>
      simp [hrun, hexch, hfire, complete, inFlight, hdone]
  · have hpend := hcons.i2 hidle hexch
    have hfire := fire_of_idle (s := sampleT t s) hidle
    cases hdone : t.busDone <;>
      simp [hidle, hexch, hfire, complete, hdone, isStart_of_pending (s := sampleT t s) hpend,
        isStop_of_pending (s := sampleT t s) hpend]

/-- A STOP that is answered at once leaves no tick in flight: where none ends at this edge there was none, since Idle
with a tick in flight means a STOP pending (I2). -/
theorem seq_wait_of_stop {p : State} (hcons : Consistent p) (hstop : isStop p = true)
    (hends : (decide (p.run = .running) && inFlight p) = false) (hcomplete : complete p = false) : p.seq = .wait := by
  cases hseq : p.seq with
  | wait => rfl
  | exch =>
    rw [inFlight_of_not_complete hcomplete, hseq] at hends
    have hidle : p.run = .idle := by cases hrun : p.run <;> simp [hrun] at hends ⊢
    have hpend := hcons.i2 hidle hseq
    simp [isStop_of_pending hpend] at hstop

theorem consistent_sampleT {s : State} (t : TIn) (h : Consistent s) : Consistent (sampleT t s) := { h with }

/-- The answer at once ends Running with nothing in flight; the deferred one finds the timer Idle (I1) and ends the
tick. -/
theorem quiescent_of_stopAnswered {s u : State} {t : TIn} (hcons : Consistent s) (hu : clkTEdge t s = .next u)
    (h : stopAnswered (sampleT t s) = true) : Quiescent u := by
  rw [Quiescent, clkTEdge_run hu, clkTEdge_seq hu, clkTEdge_stopPend hu, clkTEdge_busReq hu]
  rw [stopAnswered, Bool.or_eq_true, Bool.and_eq_true, Bool.and_eq_true, Bool.not_eq_true'] at h
  rcases h with ⟨hstop, hends⟩ | ⟨hcomplete, hpend⟩
  · obtain ⟨-, hready, -⟩ := isStop_iff.mp hstop
    rw [sampleT_stopPend] at hready
    have hdeferred : (isStop (sampleT t s) && decide (s.run = .running) && inFlight (sampleT t s)) = false := by
      rw [Bool.and_assoc]
      exact (congrArg _ hends).trans (Bool.and_false _)
    rw [fire_of_isStop hstop, hdeferred]
    cases hcomplete : complete (sampleT t s) with
    | true => simp [hstop]
    | false =>
      have hwait : s.seq = .wait :=
        seq_wait_of_stop (p := sampleT t s) (consistent_sampleT t hcons) hstop hends hcomplete
      simp [hstop, hready, hwait]
  · obtain ⟨hidle, -⟩ := hcons.i1 hpend
    have hfire := fire_of_idle (s := sampleT t s) hidle
    simp [hfire, hcomplete, hidle, isStop_of_pending hpend, isStart_of_pending hpend]

/-- Settles O50: the response pulse with code 0, and the quiet block. -/
theorem stopAnswerLeavesTheBlockQuiet : Obligations.StopAnswerLeavesTheBlockQuiet :=
  fun _ _ _ hcons hu h => ⟨quiescent_of_stopAnswered hcons hu h, clkTEdge_response hu h⟩

/-! ### A step at an edge of `clk_t` that has one operation (42_scheduler R170, 30_encoding R93, R96) -/

theorem runOps_singleton (i : Instr) (s : State) : runOps [i] s = exec i s := by
  obtain ⟨u, hu, -⟩ := exec_answers i s
  rw [runOps, hu]
  rfl

/-- The step runs that operation, between the edge's defaults and the count of `now`. -/
theorem step_of_one_op {s : State} {t : TIn} {rest : List Event} {i : Instr} (hc : s.cfg.wf = true)
    (hsched : s.schedule = .clkT t :: rest) (hops : tickDomainOps (sampleT t s) = [i]) :
    step s = andThen
      (exec i { s with schedule := rest, edges := s.edges + 1, inp := { s.inp with t := t },
                       busReq := false, ctlRespValid := false })
      fun u => .next { u with now := (u.now + 1) % 2 ^ u.cfg.tw } := by
  have hops' : tickDomainOps (sampleT t { s with schedule := rest, edges := s.edges + 1 }) = [i] := hops
  rw [step_scheduled hc hsched, runEvent, clkTEdge, hops', runOps_singleton]
  rfl

section
variable {p : State}

theorem completionOps_of_not_complete (h : complete p = false) : completionOps p = [] := by
  simp [completionOps, h]

theorem commandOps_of_accept (h : accept p = true) : commandOps p = [decodeCtl p.inp.t.ctlOp] := by
  simp [commandOps, h]

theorem commandOps_of_no_command (h : p.inp.t.ctlValid = false) : commandOps p = [] := by
  simp [commandOps, accept, h]

theorem firingOps_of_not_fire (h : fire p = false) : firingOps p = [] := by
  simp [firingOps, h]

theorem completionOps_of_success (h : complete p = true) (herr : p.inp.t.busErr = false) :
    completionOps p = [decodeBusRx (busFrame p.inp.t.busRx0 p.inp.t.busRx1 p.inp.t.busRx2)] := by
  simp [completionOps, h, herr]

theorem completionOps_of_failure (h : complete p = true) (herr : p.inp.t.busErr = true) :
    completionOps p = [.tick] := by
  simp [completionOps, h, herr]

theorem firingOps_of_fire (h : fire p = true) : firingOps p = [.tick] := by
  simp [firingOps, h]

end

/-- Settles O32: the command is the one operation of the edge. -/
theorem stepRunsTheDecodedCommand : Obligations.StepRunsTheDecodedCommand := by
  intro s t rest i hc hsched hvalid hready hcomplete hfire hi
  cases (decode_ctl s.cfg.aw t.ctlOp).symm.trans hi
  have haccept : accept (sampleT t s) = true := by simp [accept, ctlReady, hvalid, hready]
  refine step_of_one_op hc hsched ?_
  rw [tickDomainOps, completionOps_of_not_complete hcomplete, commandOps_of_accept haccept,
    firingOps_of_not_fire hfire]
  rfl

/-- Settles O33: the decoded answer is the one operation of the edge. -/
theorem stepRunsTheDecodedResponse : Obligations.StepRunsTheDecodedResponse := by
  intro s t rest i hc hsched hexch hdone herr hvalid hi
  cases (decode_busRx 0 (busFrame t.busRx0 t.busRx1 t.busRx2)).symm.trans hi
  have hcomplete : complete (sampleT t s) = true := complete_iff.mpr ⟨hexch, hdone⟩
  refine step_of_one_op hc hsched ?_
  rw [tickDomainOps, completionOps_of_success hcomplete herr, commandOps_of_no_command hvalid,
    firingOps_of_not_fire (fire_of_exch (s := sampleT t s) hexch)]
  rfl

/-- Settles O34: TICK is the one operation of the edge, as its start or as its end. -/
theorem stepRunsTheTick : Obligations.StepRunsTheTick := by
  intro s t rest hc hsched hvalid hticks
  refine step_of_one_op hc hsched ?_
  rw [tickDomainOps, commandOps_of_no_command hvalid]
  rcases hticks with hfire | ⟨hexch, hdone, herr⟩
  · rw [completionOps_of_not_complete (complete_of_fire hfire), firingOps_of_fire hfire]
    rfl
  · have hcomplete : complete (sampleT t s) = true := complete_iff.mpr ⟨hexch, hdone⟩
    rw [completionOps_of_failure hcomplete herr, firingOps_of_not_fire (fire_of_exch (s := sampleT t s) hexch)]
    rfl

/-! ### What a step and a run are to the tick domain (00_scope R10) -/

theorem sameTickDomain_refl (s : State) : SameTickDomain s s :=
  ⟨rfl, rfl, rfl, rfl, rfl, rfl, rfl, rfl, rfl, rfl, rfl, rfl⟩

theorem sameTickDomain_trans {s u v : State} (h : SameTickDomain s u) (h' : SameTickDomain u v) :
    SameTickDomain s v := by
  simp_all [SameTickDomain]

/-- To the tick domain an event with an edge of `clk_t` is that edge: an edge of `clk_c` beside it is nothing. -/
theorem runEvent_of_tick {e : Event} {s u : State} {t : TIn} (ht : tickInputs e = some t)
    (hu : runEvent e s = .next u) : ∃ v, clkTEdge t s = .next v ∧ SameTickDomain v u := by
  obtain ⟨v, hv⟩ : ∃ v, clkTEdge t s = .next v := ⟨_, clkTEdge_eq t s⟩
  refine ⟨v, hv, ?_⟩
  cases edgesOf_runEvent hu with
  | clkT t' hu' =>
    cases ht
    cases hv.symm.trans hu'
    exact sameTickDomain_refl _
  | clkC c hu' => cases ht
  | tickFirst t' c m hm hu' =>
    cases ht
    cases hv.symm.trans hm
    exact clkCEdge_sameTickDomain hu'
  | consumerFirst t' c m hm hu' =>
    cases ht
    exact tickDomainIgnoresTheConsumer s m v u t (clkCEdge_sameTickDomain hm) hv hu'
  | reset hu' => cases ht

/-- To the tick domain an event without an edge of `clk_t` is nothing, a reset aside. -/
theorem runEvent_of_no_tick {e : Event} {s u : State} (ht : tickInputs e = none) (he : noReset e = true)
    (hu : runEvent e s = .next u) : SameTickDomain s u := by
  cases edgesOf_runEvent hu with
  | clkC c hu' => exact clkCEdge_sameTickDomain hu'
  | reset hu' => cases he
  | clkT t hu' => cases ht
  | tickFirst t c m hm hu' => cases ht
  | consumerFirst t c m hm hu' => cases ht

section
variable {s u : State} {e : Event} {es rest : List Event} {t : TIn}

/-- A step takes its event from the schedule and leaves the configuration. -/
theorem step_cfg_schedule (hc : s.cfg.wf = true) (hsched : s.schedule = e :: es) (hu : step s = .next u) :
    u.cfg = s.cfg ∧ u.schedule = es := by
  rw [step_scheduled hc hsched] at hu
  exact runEvent_cfg_schedule hu

theorem step_of_tick (hc : s.cfg.wf = true) (hsched : s.schedule = e :: es) (ht : tickInputs e = some t)
    (hu : step s = .next u) : ∃ v, clkTEdge t s = .next v ∧ SameTickDomain v u := by
  rw [step_scheduled hc hsched] at hu
  obtain ⟨v', hv', hsame⟩ := runEvent_of_tick ht hu
  obtain ⟨v, hv⟩ : ∃ v, clkTEdge t s = .next v := ⟨_, clkTEdge_eq t s⟩
  have htaken := tickDomainIgnoresTheConsumer s { s with schedule := es, edges := s.edges + 1 } v v' t
    (sameTickDomain_refl s) hv hv'
  exact ⟨v, hv, sameTickDomain_trans htaken hsame⟩

theorem step_of_no_tick (hc : s.cfg.wf = true) (hsched : s.schedule = e :: es) (ht : tickInputs e = none)
    (he : noReset e = true) (hu : step s = .next u) : SameTickDomain s u := by
  rw [step_scheduled hc hsched] at hu
  exact runEvent_of_no_tick (s := { s with schedule := es, edges := s.edges + 1 }) ht he hu

theorem tickTrain_cons_of_tick (ht : tickInputs e = some t) : tickTrain (e :: es) = t :: tickTrain es :=
  List.filterMap_cons_some ht

theorem tickTrain_cons_of_no_tick (ht : tickInputs e = none) : tickTrain (e :: es) = tickTrain es :=
  List.filterMap_cons_none ht

/-- A statement about the tick domain, numbered by the edges of `clk_t`, that each edge of the train carries to the next
number (`runFor_tickTrain`). -/
structure CarriedBy (train : List TIn) (P : Nat → State → Prop) : Prop where
  tickDomainOnly : ∀ {j v w}, SameTickDomain v w → P j v → P j w
  edge : ∀ {j t v w}, train[j]? = some t → clkTEdge t v = .next w → P j v → P (j + 1) w

theorem carriedBy_tail {train : List TIn} {P : Nat → State → Prop} (h : CarriedBy (t :: train) P) :
    CarriedBy train fun j => P (j + 1) :=
  ⟨h.tickDomainOnly, fun hj => h.edge hj⟩

/-- A RUN AS THE TICK DOMAIN SEES IT. What the edges of `clk_t` carry holds after every event of a run without a reset,
whatever edges of `clk_c` lie between. -/
theorem runFor_tickTrain {P : Nat → State → Prop} (hc : s.cfg.wf = true) (hsched : s.schedule = es ++ rest)
    (hreset : ∀ e ∈ es, noReset e = true) (hP : CarriedBy (tickTrain es) P) (hstart : P 0 s) {n : Nat}
    (hn : n ≤ es.length) :
    ∃ v, runFor n s = .next v ∧ v.schedule = es.drop n ++ rest ∧ P (tickTrain (es.take n)).length v := by
  induction es generalizing n s P with
  | nil =>
    cases Nat.le_zero.mp hn
    exact ⟨s, rfl, hsched, hstart⟩
  | cons e es ih =>
    cases n with
    | zero => exact ⟨s, rfl, hsched, hstart⟩
    | succ n =>
      obtain ⟨u, hu⟩ := step_answers hc
      obtain ⟨hcfg, hschedu⟩ := step_cfg_schedule hc hsched hu
      have hreset' : ∀ e ∈ es, noReset e = true := fun e he => hreset e (List.mem_cons_of_mem _ he)
      rw [runFor_succ, hu, andThen_next, List.take_succ_cons, List.drop_succ_cons]
      rw [List.length_cons, Nat.succ_le_succ_iff] at hn
      cases ht : tickInputs e with
      | none =>
        rw [tickTrain_cons_of_no_tick ht] at hP ⊢
        have hcarried := hP.tickDomainOnly (step_of_no_tick hc hsched ht (hreset e List.mem_cons_self) hu) hstart
        exact ih (hcfg ▸ hc) hschedu hreset' hP hcarried hn
      | some t =>
        rw [tickTrain_cons_of_tick ht] at hP ⊢
        obtain ⟨v, hv, hvu⟩ := step_of_tick hc hsched ht hu
        have hcarried := hP.tickDomainOnly hvu (hP.edge rfl hv hstart)
        exact ih (hcfg ▸ hc) hschedu hreset' (carriedBy_tail hP) hcarried hn

/-- At the end of the run. -/
theorem runFor_tickTrain_end {P : Nat → State → Prop} (hc : s.cfg.wf = true) (hsched : s.schedule = es ++ rest)
    (hreset : ∀ e ∈ es, noReset e = true) (hP : CarriedBy (tickTrain es) P) (hstart : P 0 s) :
    ∃ v, runFor es.length s = .next v ∧ v.schedule = rest ∧ P (tickTrain es).length v := by
  simpa using runFor_tickTrain hc hsched hreset hP hstart le_rfl

end

/-! ### After a STOP has returned (42_scheduler R182) -/

theorem sameRing_refl (s : State) : SameRing s s := ⟨rfl, rfl, rfl, rfl⟩

theorem sameRing_trans {s u v : State} (h : SameRing s u) (h' : SameRing u v) : SameRing s v := by
  simp_all [SameRing]

theorem sameRing_of_sameTickDomain {s u : State} (h : SameTickDomain s u) : SameRing s u := by
  simp_all [SameTickDomain, SameRing]

theorem quiescent_of_sameTickDomain {s u : State} (h : SameTickDomain s u) (hq : Quiescent s) : Quiescent u := by
  simp_all [SameTickDomain, Quiescent]

/-- A quiet block stays quiet at an edge without a START: no tick ends, none starts, and a STOP finds the timer Idle. -/
theorem quiescent_clkTEdge {s u : State} {t : TIn} (hq : Quiescent s) (hstart : isStart (sampleT t s) = false)
    (hu : clkTEdge t s = .next u) : Quiescent u ∧ SameRing s u := by
  obtain ⟨hidle, hwait, hready, -⟩ := hq
  have hfire := fire_of_idle (s := sampleT t s) hidle
  have hcomplete := complete_of_wait (s := sampleT t s) hwait
  have hwritten : writtenSlot (sampleT t s) = none := by simp [writtenSlot, hcomplete]
  constructor
  · rw [Quiescent, clkTEdge_run hu, clkTEdge_seq hu, clkTEdge_stopPend hu, clkTEdge_busReq hu]
    simp [hidle, hwait, hready, hstart, hfire, hcomplete]
  · have hbuffer := clkTEdge_sameBuffer hu
    rw [tickWrite_of_not_written hwritten] at hbuffer
    refine ⟨hbuffer.pos, hbuffer.posGray, hbuffer.mem, ?_⟩
    rw [clkTEdge_deadline hu]
    simp [hstart, hcomplete]

/-- An event without a START is no reset, and its edge of `clk_t`, if it has one, takes no START. -/
theorem noReset_of_noStart {e : Event} (h : noStart e = true) : noReset e = true := by
  cases e <;> simp_all [noStart, noReset]

theorem isStart_of_noStart {e : Event} {t : TIn} (h : noStart e = true) (ht : tickInputs e = some t) (s : State) :
    isStart (sampleT t s) = false := by
  rw [← Bool.not_eq_true, isStart_iff]
  rintro ⟨hvalid, -, hop⟩
  cases e <;> cases ht <;> simp_all [noStart]

/-- Edges without a START carry the quiet block with the ring of `u`. -/
theorem carriedBy_quiescent {es : List Event} (hno : ∀ e ∈ es, noStart e = true) (u : State) :
    CarriedBy (tickTrain es) fun _ v => Quiescent v ∧ SameRing u v where
  tickDomainOnly := fun hsame ⟨hq, hring⟩ =>
    ⟨quiescent_of_sameTickDomain hsame hq, sameRing_trans hring (sameRing_of_sameTickDomain hsame)⟩
  edge := fun {_ t v w} hj hw ⟨hq, hring⟩ => by
    obtain ⟨e, he, ht⟩ := List.mem_filterMap.mp (List.mem_of_getElem? hj)
    obtain ⟨hq', hring'⟩ := quiescent_clkTEdge hq (isStart_of_noStart (hno e he) ht v) hw
    exact ⟨hq', sameRing_trans hring hring'⟩

/-- Settles O51: the edge that answers leaves the block quiet, and the events after it carry that. -/
theorem stopGuarantee : Obligations.StopGuarantee := by
  intro s e t es rest hinv hsched ht hanswered hno
  obtain ⟨u, hu⟩ := step_answers hinv.cfg
  obtain ⟨hcfg, hschedu⟩ := step_cfg_schedule hinv.cfg hsched hu
  obtain ⟨v, hv, hsame⟩ := step_of_tick hinv.cfg hsched ht hu
  obtain ⟨hquiet, hvalid, herr⟩ := stopAnswerLeavesTheBlockQuiet s v t hinv.consistent hv hanswered
  have hquietu := quiescent_of_sameTickDomain hsame hquiet
  obtain ⟨w, hw, -, hquietw, hring⟩ := runFor_tickTrain_end (hcfg ▸ hinv.cfg) hschedu
    (fun e he => noReset_of_noStart (hno e he)) (carriedBy_quiescent hno u) ⟨hquietu, sameRing_refl u⟩
  obtain ⟨-, -, -, -, -, -, -, hvalidu, herru, -⟩ := hsame
  exact ⟨u, w, hu, hvalidu.trans hvalid, herru.trans herr, hw, hquietw, hring⟩

/-! ### The timer at one edge of `clk_t` (42_scheduler R172, R174 to R177) -/

/-- The registers of the schedule, with the configuration. -/
structure Timer where
  cfg : Config
  now : Nat
  run : AcquisitionState
  deadline : Nat
  seq : SeqPhase
  stopPend : Bool
  busReq : Bool

/-- The timer of a state. -/
def timer (s : State) : Timer :=
  { cfg := s.cfg, now := s.now, run := s.run, deadline := s.deadline, seq := s.seq, stopPend := s.stopPend,
    busReq := s.busReq }

theorem timer_eq_iff {s : State} {x : Timer} : timer s = x ↔
    s.cfg = x.cfg ∧ s.now = x.now ∧ s.run = x.run ∧ s.deadline = x.deadline ∧ s.seq = x.seq ∧
      s.stopPend = x.stopPend ∧ s.busReq = x.busReq := by
  cases x
  simp [timer]

theorem timer_of_sameTickDomain {s u : State} (h : SameTickDomain s u) : timer u = timer s := by
  obtain ⟨hcfg, hnow, hrun, hdeadline, hseq, hstop, hbus, -⟩ := h
  rw [timer, hcfg, hnow, hrun, hdeadline, hseq, hstop, hbus]
  rfl

section
variable {s u : State} {t : TIn}

/-- The simultaneous assignments of the timer. -/
theorem timer_clkTEdge (hu : clkTEdge t s = .next u) :
    timer u =
      { timer s with
        now := (s.now + 1) % 2 ^ s.cfg.tw
        run := (tickDomainNext (sampleT t s)).run
        deadline := (tickDomainNext (sampleT t s)).deadline
        seq := (tickDomainNext (sampleT t s)).seq
        stopPend := (tickDomainNext (sampleT t s)).stopPend
        busReq := (tickDomainNext (sampleT t s)).busReq } := by
  obtain ⟨hcfg, -⟩ := clkTEdge_cfg_schedule hu
  rw [← registers_clkTEdge hu, ← clkTEdge_now hu, timer, hcfg]
  rfl

/-- An edge without a STOP accepts none. -/
theorem isStop_of_noStop (h : noStop t = true) (s : State) : isStop (sampleT t s) = false := by
  rw [← Bool.not_eq_true, isStop_iff]
  rintro ⟨hvalid, -, hop⟩
  simp_all [noStop]

/-- A START from Idle with a sound time base arms the timer one period ahead. -/
theorem timer_of_start (hidle : s.run = .idle) (hwait : s.seq = .wait) (hready : s.stopPend = false)
    (hvalid : t.ctlValid = true) (hop : t.ctlOp = 1#1) (htb : t.tbOk = true) (hu : clkTEdge t s = .next u) :
    timer u =
      { timer s with
        now := (s.now + 1) % 2 ^ s.cfg.tw, run := .running, deadline := (s.now + s.cfg.period) % 2 ^ s.cfg.tw,
        busReq := false } := by
  have hstart : isStart (sampleT t s) = true := isStart_iff.mpr ⟨hvalid, hready, hop⟩
  rw [timer_clkTEdge hu]
  simp [timer, tickDomainNext, startsFromIdle, isStop_of_isStart hstart, hstart, hidle, hwait, htb,
    fire_of_idle, complete_of_wait]

/-- A due tick fires. -/
theorem timer_of_due (hrun : s.run = .running) (hwait : s.seq = .wait)
    (hdue : reached s.cfg.tw s.now s.deadline = true) (hstop : noStop t = true) (hu : clkTEdge t s = .next u) :
    timer u = { timer s with now := (s.now + 1) % 2 ^ s.cfg.tw, seq := .exch, busReq := true } := by
  have hfire : fire (sampleT t s) = true := fire_iff.mpr ⟨hrun, hdue, hwait, isStop_of_noStop hstop s⟩
  rw [timer_clkTEdge hu]
  simp [timer, tickDomainNext, startsFromIdle, isStop_of_noStop hstop, hfire, hrun, complete_of_wait, hwait]

/-- Before the deadline the timer waits, whatever the transport does. -/
theorem timer_of_early (hrun : s.run = .running) (hwait : s.seq = .wait)
    (hearly : reached s.cfg.tw s.now s.deadline = false) (hstop : noStop t = true) (hu : clkTEdge t s = .next u) :
    timer u = { timer s with now := (s.now + 1) % 2 ^ s.cfg.tw, busReq := false } := by
  rw [timer_clkTEdge hu]
  simp [timer, tickDomainNext, startsFromIdle, isStop_of_noStop hstop, hrun, complete_of_wait, hwait, fire, pending,
    hearly]

/-- A tick in flight waits for its answer. -/
theorem timer_of_unanswered (hrun : s.run = .running) (hexch : s.seq = .exch) (hdone : t.busDone = false)
    (hstop : noStop t = true) (hu : clkTEdge t s = .next u) :
    timer u = { timer s with now := (s.now + 1) % 2 ^ s.cfg.tw, busReq := false } := by
  rw [timer_clkTEdge hu]
  simp [timer, tickDomainNext, startsFromIdle, isStop_of_noStop hstop, hrun, hexch, fire, complete, hdone]

/-- The answer ends the tick and moves the deadline one period further. -/
theorem timer_of_answered (hrun : s.run = .running) (hexch : s.seq = .exch) (hdone : t.busDone = true)
    (hstop : noStop t = true) (hu : clkTEdge t s = .next u) :
    timer u =
      { timer s with
        now := (s.now + 1) % 2 ^ s.cfg.tw, deadline := (s.deadline + s.cfg.period) % 2 ^ s.cfg.tw, seq := .wait,
        stopPend := false, busReq := false } := by
  rw [timer_clkTEdge hu]
  simp [timer, tickDomainNext, startsFromIdle, isStop_of_noStop hstop, hrun, hexch, fire, complete, hdone]

end

/-! ### The comparison of time, from edge to edge (42_scheduler R179, 70_reset_and_hazards R269) -/

/-- Half the range lies beyond every period, by 00_scope R12. -/
theorem period_le_half {c : Config} (hc : c.wf = true) : c.period ≤ 2 ^ (c.tw - 1) := by
  obtain ⟨-, -, -, hperiod⟩ := c.wf_iff.mp hc
  exact hperiod.le.trans (Nat.pow_le_pow_right (by omega) (by omega))

theorem tw_pos {c : Config} (hc : c.wf = true) : 1 ≤ c.tw := by
  obtain ⟨-, -, htw, -⟩ := c.wf_iff.mp hc
  omega

theorem period_pos {c : Config} (hc : c.wf = true) : 1 ≤ c.period := by
  obtain ⟨-, hperiod, -, -⟩ := c.wf_iff.mp hc
  exact hperiod

/-- The comparison looks at the deadline modulo its width. -/
theorem timeSince_mod (tw a d : Nat) : timeSince tw a (d % 2 ^ tw) = timeSince tw a d := by
  rw [timeSince, Nat.mod_mod]
  rfl

/-- The time is its lateness after the deadline. -/
theorem add_timeSince {tw a d : Nat} (ha : a < 2 ^ tw) (hd : d < 2 ^ tw) : (d + timeSince tw a d) % 2 ^ tw = a := by
  rw [timeSince, Nat.mod_eq_of_lt hd, Nat.add_mod_mod, show d + (a + (2 ^ tw - d)) = a + 2 ^ tw by omega,
    Nat.add_mod_right, Nat.mod_eq_of_lt ha]

/-- Less than half the range after the deadline it is reached. -/
theorem reached_of_late {c : Config} (hc : c.wf = true) {d m : Nat} (hm : m < 2 ^ (c.tw - 1)) :
    reached c.tw ((d + m) % 2 ^ c.tw) (d % 2 ^ c.tw) = true := by
  rw [← Nat.mod_add_mod]
  obtain ⟨hlate, -⟩ := reachedAcrossTheWrap c.tw (d % 2 ^ c.tw) m (tw_pos hc) (Nat.mod_lt _ (Nat.two_pow_pos _))
  exact hlate hm

/-- Up to a period before the deadline it is not reached. -/
theorem reached_of_early {c : Config} (hc : c.wf = true) {a m : Nat} (hpos : 1 ≤ m) (hm : m ≤ c.period) :
    reached c.tw (a % 2 ^ c.tw) ((a + m) % 2 ^ c.tw) = false := by
  rw [← Nat.mod_add_mod]
  obtain ⟨-, hearly⟩ := reachedAcrossTheWrap c.tw (a % 2 ^ c.tw) m (tw_pos hc) (Nat.mod_lt _ (Nat.two_pow_pos _))
  exact hearly hpos (hm.trans (period_le_half hc))

/-! ### The first tick after a START (42_scheduler R172, 70_reset_and_hazards R273) -/

/-- The timer `j` edges of `clk_t` after time `a`, at which a START armed it. -/
def armedTimer (c : Config) (a j : Nat) : Timer :=
  { cfg := c, now := (a + j) % 2 ^ c.tw, run := .running, deadline := (a + c.period) % 2 ^ c.tw, seq := .wait,
    stopPend := false, busReq := false }

/-- Until the deadline the next edge is one more. -/
theorem armedTimer_succ {v w : State} {t : TIn} {c : Config} {a j : Nat} (hc : c.wf = true) (hj : j < c.period)
    (hv : timer v = armedTimer c a j) (hstop : noStop t = true) (hw : clkTEdge t v = .next w) :
    timer w = armedTimer c a (j + 1) := by
  obtain ⟨hcfg, hnow, hrun, hdeadline, hwait, -, -⟩ := timer_eq_iff.mp hv
  have hearly : reached v.cfg.tw v.now v.deadline = false := by
    have hleft : a + c.period = a + j + (c.period - j) := by omega
    rw [hcfg, hnow, hdeadline, armedTimer, hleft]
    exact reached_of_early hc (by omega) (by omega)
  rw [timer_of_early hrun hwait hearly hstop hw, hv, hcfg, hnow]
  simp [armedTimer, Nat.add_assoc]

/-- No request stands while no tick is in flight (I4). -/
theorem busReq_of_wait {s : State} (hcons : Consistent s) (hwait : s.seq = .wait) : s.busReq = false := by
  rw [← Bool.not_eq_true]
  intro h
  cases hwait.symm.trans (hcons.i4 h)

/-- The START edge, and then the edges up to the deadline, carry the armed timer. -/
theorem carriedBy_armedTimer {s : State} {t : TIn} {ts : List TIn} (hc : s.cfg.wf = true) (hidle : s.run = .idle)
    (hwait : s.seq = .wait) (hready : s.stopPend = false) (hvalid : t.ctlValid = true) (hop : t.ctlOp = 1#1)
    (htb : t.tbOk = true) (hlen : (t :: ts).length ≤ s.cfg.period) (hstop : ∀ t' ∈ ts, noStop t' = true) :
    CarriedBy (t :: ts) fun j v => timer v = if j = 0 then timer s else armedTimer s.cfg s.now j where
  tickDomainOnly := fun hsame hv => (timer_of_sameTickDomain hsame).trans hv
  edge := fun {j t' v w} hj hw hv => by
    cases j with
    | zero =>
      cases hj
      obtain ⟨hcfg, hnow, hrunv, -, hwaitv, hreadyv, -⟩ := timer_eq_iff.mp hv
      rw [timer_of_start (hrunv.trans hidle) (hwaitv.trans hwait) (hreadyv.trans hready) hvalid hop htb hw, hv, hcfg,
        hnow]
      simp [armedTimer, timer, hwait, hready]
    | succ j =>
      obtain ⟨hlt, -⟩ := List.getElem?_eq_some_iff.mp hj
      exact armedTimer_succ hc (by omega) hv (hstop t' (List.mem_of_getElem? hj)) hw

/-- Settles O52: the armed timer after `P` edges, the START edge among them, stands at its deadline. -/
theorem firstTickOnePeriodAfterStart : Obligations.FirstTickOnePeriodAfterStart := by
  intro s t ts es rest hinv hidle hwait hready hvalid hop htb hsched hreset htrain hlen hstop
  have hcarried := carriedBy_armedTimer hinv.cfg hidle hwait hready hvalid hop htb hlen.le hstop
  rw [← htrain] at hcarried hlen
  have hbus := busReq_of_wait hinv.consistent hwait
  obtain ⟨u, hu, hschedu, htimer⟩ := runFor_tickTrain_end hinv.cfg hsched hreset hcarried (if_pos rfl).symm
  have hperiod := period_pos hinv.cfg
  rw [hlen, if_neg (by omega)] at htimer
  obtain ⟨-, hnow, hrun, hdeadline, hseq, -, -⟩ := timer_eq_iff.mp htimer
  refine ⟨u, hu, hrun, hseq, hnow, hdeadline.trans hnow.symm, hschedu, fun n v hn hv => ?_⟩
  obtain ⟨v', hv', -, htimerv⟩ := runFor_tickTrain hinv.cfg hsched hreset hcarried (if_pos rfl).symm hn
  cases hv.symm.trans hv'
  split at htimerv
  · exact (congrArg Timer.busReq htimerv).trans hbus
  · exact congrArg Timer.busReq htimerv

/-! ### A tick and the wait for the next (42_scheduler R177 to R179) -/

/-- The timer `j` edges of `clk_t` after it stood `l` edges behind the due deadline `d`, where the tick's latency is `L`:
edge 0 fires, edge `L` brings the answer. -/
def tickTimer (c : Config) (d l L j : Nat) : Timer :=
  { cfg := c, now := (d + l + j) % 2 ^ c.tw, run := .running,
    deadline := if j ≤ L then d % 2 ^ c.tw else (d + c.period) % 2 ^ c.tw,
    seq := if 1 ≤ j ∧ j ≤ L then .exch else .wait, stopPend := false, busReq := decide (j = 1) }

section
variable {c : Config} {d l L j : Nat} {s v w : State} {t : TIn}

theorem answersWhen_iff {answers : Bool} :
    answersWhen answers t = true ↔ noStop t = true ∧ t.busDone = answers := by
  simp [answersWhen]

/-- One more edge, before the next deadline: the fire, the wait for the answer, the answer, the wait for the deadline. -/
theorem tickTimer_succ (hc : c.wf = true) (hl : l < 2 ^ (c.tw - 1)) (hL : 1 ≤ L) (hwaits : L < j → l + j < c.period)
    (hv : timer v = tickTimer c d l L j) (ht : answersWhen (decide (j = L)) t = true)
    (hw : clkTEdge t v = .next w) : timer w = tickTimer c d l L (j + 1) := by
  obtain ⟨hstop, hdone⟩ := answersWhen_iff.mp ht
  obtain ⟨hcfg, hnow, hrun, hdeadline, hseq, -, -⟩ := timer_eq_iff.mp hv
  have hcases : j = 0 ∨ (1 ≤ j ∧ j < L) ∨ (1 ≤ j ∧ j = L) ∨ (1 ≤ j ∧ L < j) := by omega
  rcases hcases with rfl | ⟨hpos, hlt⟩ | ⟨hpos, rfl⟩ | ⟨hpos, hgt⟩
  · have hdue : reached v.cfg.tw v.now v.deadline = true := by
      rw [hcfg, hnow, hdeadline]
      exact reached_of_late hc hl
    rw [timer_of_due hrun hseq hdue hstop hw, hv, hcfg, hnow]
    simp [tickTimer, hL]
  · have hexch : v.seq = .exch := hseq.trans (if_pos ⟨hpos, hlt.le⟩)
    have hnone : t.busDone = false := hdone.trans (decide_eq_false hlt.ne)
    rw [timer_of_unanswered hrun hexch hnone hstop hw, hv, hcfg, hnow]
    simp [tickTimer, hlt.le, hpos, Nat.succ_le_of_lt hlt, Nat.ne_of_gt hpos, Nat.add_assoc]
  · have hexch : v.seq = .exch := hseq.trans (if_pos ⟨hpos, le_rfl⟩)
    have hended : t.busDone = true := hdone.trans (decide_eq_true rfl)
    rw [timer_of_answered hrun hexch hended hstop hw, hv, hcfg, hnow, hdeadline]
    simp [tickTimer, Nat.ne_of_gt hpos, Nat.add_assoc]
  · have hwait : v.seq = .wait := hseq.trans (if_neg (by omega))
    have hahead := hwaits hgt
    have hleft : d + c.period = d + l + j + (c.period - (l + j)) := by omega
    have hearly : reached v.cfg.tw v.now v.deadline = false := by
      rw [hcfg, hnow, hdeadline, tickTimer, if_neg hgt.not_ge, hleft]
      exact reached_of_early hc (by omega) (by omega)
    rw [timer_of_early hrun hwait hearly hstop hw, hv, hcfg, hnow]
    simp [tickTimer, hgt.not_ge, hgt.not_gt, Nat.ne_of_gt hpos, Nat.add_assoc]

/-- The edges of a tick and of the wait after it carry the tick's timer. -/
theorem carriedBy_tickTimer {train : List TIn} (hc : c.wf = true) (hl : l < 2 ^ (c.tw - 1)) (hL : 1 ≤ L)
    (hlen : train.length ≤ max (L + 1) (c.period - l))
    (hanswers : ∀ j t, train[j]? = some t → answersWhen (decide (j = L)) t = true) :
    CarriedBy train fun j v => timer v = tickTimer c d l L j where
  tickDomainOnly := fun hsame hv => (timer_of_sameTickDomain hsame).trans hv
  edge := fun {j t v w} hj hw hv => by
    obtain ⟨hlt, -⟩ := List.getElem?_eq_some_iff.mp hj
    exact tickTimer_succ hc hl hL (by omega) hv (hanswers j t hj) hw

/-- A due timer stands at the start of its tick, by its lateness behind its deadline. -/
theorem timer_eq_tickTimer_zero (hinv : Inv s) (hrun : s.run = .running) (hwait : s.seq = .wait) (L : Nat) :
    timer s = tickTimer s.cfg s.deadline (lateness s) L 0 := by
  have hnow : (s.deadline + lateness s) % 2 ^ s.cfg.tw = s.now :=
    add_timeSince hinv.widths.now hinv.widths.deadline
  have hready : s.stopPend = false := by
    rw [← Bool.not_eq_true]
    intro h
    obtain ⟨hidle, -⟩ := hinv.consistent.i1 h
    cases hrun.symm.trans hidle
  rw [timer_eq_iff]
  simp [tickTimer, hnow, hrun, hwait, hready, busReq_of_wait hinv.consistent hwait,
    Nat.mod_eq_of_lt hinv.widths.deadline]

/-- After the answer, from the next deadline on: the tick is due again, as late as edges have passed since. -/
theorem due_of_tickTimer (hc : c.wf = true) (hv : timer v = tickTimer c d l L j) (hafter : L < j)
    (hdue : c.period ≤ l + j) (hlate : l + j < c.period + 2 ^ (c.tw - 1)) :
    reached v.cfg.tw v.now v.deadline = true ∧ lateness v + c.period = l + j := by
  obtain ⟨hcfg, hnow, -, hdeadline, -, -, -⟩ := timer_eq_iff.mp hv
  have hcfg' : v.cfg = c := hcfg
  have hsince : d + l + j = d + c.period + (l + j - c.period) := by omega
  have hnow' : v.now = (d + c.period + (l + j - c.period)) % 2 ^ c.tw :=
    hnow.trans (congrArg (· % 2 ^ c.tw) hsince)
  have hdeadline' : v.deadline = (d + c.period) % 2 ^ c.tw := hdeadline.trans (if_neg hafter.not_ge)
  have hhalf : 2 ^ (c.tw - 1) ≤ 2 ^ c.tw := Nat.pow_le_pow_right (by omega) (by omega)
  constructor
  · rw [hcfg', hnow', hdeadline']
    exact reached_of_late hc (by omega)
  · rw [lateness, hcfg', hnow', hdeadline', timeSince_mod, timeSince_add, Nat.mod_eq_of_lt (by omega)]
    omega

end

/-- Settles O53: the tick's timer at the next fire, and its request pulse on the way. -/
theorem fireEdgesRecurrence : Obligations.FireEdgesRecurrence := by
  intro s es rest L hinv hrun hwait hdue hsched hreset hL hlen hlate hanswers
  have hl : lateness s < 2 ^ (s.cfg.tw - 1) := of_decide_eq_true hdue
  have hstart := timer_eq_tickTimer_zero hinv hrun hwait L
  have hcarried := carriedBy_tickTimer (d := s.deadline) hinv.cfg hl hL hlen.le hanswers
  obtain ⟨u, hu, hschedu, htimer⟩ := runFor_tickTrain_end hinv.cfg hsched hreset hcarried hstart
  have hafter : L < (tickTrain es).length := by omega
  obtain ⟨hdueu, hlateu⟩ := due_of_tickTimer hinv.cfg htimer hafter (by omega) hlate
  obtain ⟨-, hnow, hrunu, hdeadline, hseq, -, -⟩ := timer_eq_iff.mp htimer
  refine ⟨u, hu, hrunu, hseq.trans (if_neg (by omega)), hdueu, ?_, hdeadline.trans (if_neg hafter.not_ge), hlateu,
    hschedu, fun n v hn hv => ?_⟩
  · obtain ⟨-, hnows, -⟩ := timer_eq_iff.mp hstart
    rw [hnow, hnows]
    simp [tickTimer]
  · obtain ⟨v', hv', -, htimerv⟩ := runFor_tickTrain hinv.cfg hsched hreset hcarried hstart hn
    cases hv.symm.trans hv'
    obtain ⟨-, -, -, -, -, -, hbus⟩ := timer_eq_iff.mp htimerv
    rw [hbus]
    exact decide_eq_true_iff

/-! ### No drift (42_scheduler R185) -/

/-- The timer `j` edges of `clk_t` after a fire exactly at the deadline `d`, where every tick of the list of latencies
ends before the next deadline: the tick number `j / P`, at its edge `j % P`. -/
def driftFreeTimer (c : Config) (d : Nat) (Ls : List Nat) (j : Nat) : Timer :=
  tickTimer c (d + j / c.period * c.period) 0 (Ls.getD (j / c.period) 1) (j % c.period)

section
variable {c : Config} {d L i j k : Nat} {Ls : List Nat} {v w : State} {t : TIn}

theorem driftFreeTimer_of_tick (hi : i < c.period) :
    driftFreeTimer c d Ls (k * c.period + i) = tickTimer c (d + k * c.period) 0 (Ls.getD k 1) i := by
  have hdiv : (k * c.period + i) / c.period = k := by
    rw [Nat.mul_comm, Nat.mul_add_div (by omega), Nat.div_eq_of_lt hi, Nat.add_zero]
  rw [driftFreeTimer, hdiv, Nat.mul_add_mod', Nat.mod_eq_of_lt hi]

/-- A period after a tick that ended in time the next one is exactly due. -/
theorem tickTimer_period (hL : L < c.period) (hone : 1 < c.period) (L' : Nat) :
    tickTimer c d 0 L c.period = tickTimer c (d + c.period) 0 L' 0 := by
  simp [tickTimer, hL.not_ge, hone.ne']

/-- One more edge of tick `k`, the last one of its period included. -/
theorem driftFreeTimer_succ (hc : c.wf = true) (hk : Ls[k]? = some L) (hL : 1 ≤ L) (hlt : L < c.period)
    (hi : i < c.period) (hv : timer v = driftFreeTimer c d Ls (k * c.period + i))
    (ht : answersWhen (decide (i = L)) t = true) (hw : clkTEdge t v = .next w) :
    timer w = driftFreeTimer c d Ls (k * c.period + i + 1) := by
  have hget : Ls.getD k 1 = L := by simp [List.getD, hk]
  rw [driftFreeTimer_of_tick hi, hget] at hv
  have hnext : timer w = tickTimer c (d + k * c.period) 0 L (i + 1) :=
    tickTimer_succ hc (Nat.two_pow_pos _) hL (by omega) hv ht hw
  rcases Nat.lt_or_ge (i + 1) c.period with hinner | hlast
  · rw [Nat.add_assoc, driftFreeTimer_of_tick hinner, hget, hnext]
  · have hend : i + 1 = c.period := by omega
    have hwhole : k * c.period + i + 1 = (k + 1) * c.period + 0 := by rw [Nat.succ_mul]; omega
    rw [hwhole, driftFreeTimer_of_tick (by omega), hnext, hend, tickTimer_period hlt (by omega), Nat.succ_mul,
      Nat.add_assoc]

/-- A timer exactly at its deadline stands at the start of the first tick. -/
theorem timer_eq_driftFreeTimer_zero (hinv : Inv v) (hrun : v.run = .running) (hwait : v.seq = .wait)
    (hdue : v.now = v.deadline) (Ls : List Nat) : timer v = driftFreeTimer v.cfg v.deadline Ls 0 := by
  have hpunctual : lateness v = 0 := by
    have hsince := timeSince_add v.cfg.tw v.deadline 0
    rw [Nat.add_zero, Nat.mod_eq_of_lt hinv.widths.deadline, Nat.zero_mod] at hsince
    rwa [lateness, hdue]
  rw [timer_eq_tickTimer_zero hinv hrun hwait (Ls.getD 0 1), hpunctual]
  simp [driftFreeTimer]

/-- The edges of all the ticks carry the drift-free timer. -/
theorem carriedBy_driftFreeTimer {train : List TIn} (hc : c.wf = true) (hlen : train.length = Ls.length * c.period)
    (hlatencies : ∀ L ∈ Ls, 1 ≤ L ∧ L < c.period)
    (hanswers : ∀ k L j t, Ls[k]? = some L → j < c.period → train[k * c.period + j]? = some t →
      answersWhen (decide (j = L)) t = true) :
    CarriedBy train fun j v => timer v = driftFreeTimer c d Ls j where
  tickDomainOnly := fun hsame hv => (timer_of_sameTickDomain hsame).trans hv
  edge := fun {j t v w} hj hw hv => by
    obtain ⟨hlt, -⟩ := List.getElem?_eq_some_iff.mp hj
    have hi : j % c.period < c.period := Nat.mod_lt _ (period_pos hc)
    have hk : j / c.period < Ls.length := Nat.div_lt_of_lt_mul (by rw [Nat.mul_comm]; omega)
    have hget : Ls[j / c.period]? = some Ls[j / c.period] := List.getElem?_eq_getElem hk
    obtain ⟨hL, hLlt⟩ := hlatencies _ (List.getElem_mem hk)
    rw [← Nat.div_add_mod' j c.period] at hj hv ⊢
    exact driftFreeTimer_succ hc hget hL hLlt hi hv (hanswers _ _ _ t hget hi hj) hw

end

/-- Settles O54: after `n` periods the drift-free timer is at the fire of tick `n`, and in every period the request
stands after the first edge alone. -/
theorem noDrift : Obligations.NoDrift := by
  intro Ls s es rest hinv hrun hwait hdue hsched hreset hlen hlatencies hanswers
  have hperiod := period_pos hinv.cfg
  have hstart := timer_eq_driftFreeTimer_zero hinv hrun hwait hdue Ls
  have hcarried := carriedBy_driftFreeTimer (d := s.deadline) hinv.cfg hlen hlatencies hanswers
  obtain ⟨u, hu, hschedu, htimer⟩ := runFor_tickTrain_end hinv.cfg hsched hreset hcarried hstart
  have hend : timer u = tickTimer s.cfg (s.deadline + Ls.length * s.cfg.period) 0 (Ls.getD Ls.length 1) 0 := by
    rw [htimer, hlen]
    exact driftFreeTimer_of_tick (i := 0) hperiod
  obtain ⟨-, hnow, hrunu, hdeadline, hseq, -, -⟩ := timer_eq_iff.mp hend
  refine ⟨u, hu, hrunu, hseq, hnow.trans hdeadline.symm, hdeadline, hschedu, fun n v hn hv => ?_⟩
  obtain ⟨v', hv', -, htimerv⟩ := runFor_tickTrain hinv.cfg hsched hreset hcarried hstart hn
  cases hv.symm.trans hv'
  obtain ⟨-, -, -, -, -, -, hbus⟩ := timer_eq_iff.mp htimerv
  rw [hbus]
  exact decide_eq_true_iff

end Sys2Proof.Machine
end

-- ==== Proofs of 43_external_interfaces: a poll of the consumer, and why a safe consumer loses nothing ====
section
/-! The statements drawn from 43_external_interfaces. First the arithmetic of a poll, then what the consumer and the
block with its consumer do at one event, then the counts a safe consumer keeps from event to event. -/

namespace Sys2Proof.Machine

open Sys2Proof.Safety

/-! ### The arithmetic of a poll (43_external_interfaces R214) -/

section
variable {c : Config} {lastPos p i : Nat}

/-- `avail` is the subtraction of 00_scope R15 on indices, as `timeSince` is on times. -/
theorem avail_eq_timeSince (c : Config) (p lastPos : Nat) :
    Consumer.avail c p lastPos = timeSince c.aw p lastPos := rfl

theorem avail_lt (c : Config) (p lastPos : Nat) : Consumer.avail c p lastPos < c.slots := Nat.mod_lt _ (slots_pos c)

/-- With fewer than a lap of writes between two polls, `avail` is their number. -/
theorem avail_of_counts {taken : Nat} (hle : taken ≤ p) (hlt : p < taken + c.slots) :
    Consumer.avail c (p % c.slots) (taken % c.slots) = p - taken := by
  have hp : (taken + (p - taken)) % c.slots = p % c.slots := by rw [Nat.add_sub_cancel' hle]
  calc Consumer.avail c (p % c.slots) (taken % c.slots)
      = timeSince c.aw ((taken + (p - taken)) % c.slots) taken := by
        rw [avail_eq_timeSince, hp]
        exact timeSince_mod _ _ _
    _ = (p - taken) % c.slots := timeSince_add _ _ _
    _ = p - taken := Nat.mod_eq_of_lt (by omega)

/-- A slot the consumer has yet to copy is the one the ring comes round to after `N - avail + i` writes. -/
theorem slot_eq_write_after_poll (hlast : lastPos < c.slots) (hp : p < c.slots) :
    (lastPos + i) % c.slots = (p + (c.slots - Consumer.avail c p lastPos + i)) % c.slots := by
  have hround : (lastPos + Consumer.avail c p lastPos) % c.slots = p := add_timeSince hp hlast
  have hlap := avail_lt c p lastPos
  generalize Consumer.avail c p lastPos = k at hround hlap ⊢
  calc (lastPos + i) % c.slots
      = (lastPos + i + c.slots) % c.slots := (Nat.add_mod_right _ _).symm
    _ = (lastPos + k + (c.slots - k + i)) % c.slots := by congr 1; omega
    _ = (p + (c.slots - k + i)) % c.slots := by rw [← Nat.mod_add_mod, hround]

theorem copySlots_getElem (hi : i < Consumer.avail c p lastPos) :
    (Consumer.copySlots c p lastPos)[i]? = some ((lastPos + i) % c.slots) := by
  simp [Consumer.copySlots, Consumer.slotAt, hi]

end

/-- Settles O58: the subtraction modulo `N`, and the slots from `lastPos` on. -/
theorem consumerPollArithmetic : Obligations.ConsumerPollArithmetic := by
  intro c lastPos w hlast
  refine ⟨timeSince_add _ _ _, fun p hp i hi => ⟨copySlots_getElem hi, slot_eq_write_after_poll hlast hp⟩⟩

/-! ### The consumer at one event (43_external_interfaces R214) -/

section
variable {s : State} {e : Event} {c : CIn} {u : Consumer} {q : Poll} {cfg : Config}

theorem sampled_of_no_consumer_edge (he : consumerInputs e = none) : u.sampled s e = u := by
  simp [Consumer.sampled, he]

theorem sampled_of_pos (he : consumerInputs e = some c) (hpos : c.readPos = true) (hpoll : u.poll = none) :
    u.sampled s e = { u with poll := some { p := posC s, out := [] } } := by
  simp [Consumer.sampled, Consumer.begin, he, hpos, hpoll]

/-- The consumer takes POS where it is between polls, and else goes on as it is. -/
theorem sampled_cases (s : State) (e : Event) (u : Consumer) :
    u.sampled s e = u ∨
    ∃ c, consumerInputs e = some c ∧ c.readPos = true ∧ u.poll = none ∧
      u.sampled s e = { u with poll := some { p := posC s, out := [] } } := by
  cases he : consumerInputs e with
  | none => exact .inl (sampled_of_no_consumer_edge he)
  | some c =>
    cases hpoll : u.poll with
    | some q => exact .inl (sampled_of_polling hpoll)
    | none =>
      cases hpos : c.readPos with
      | false => exact .inl (by simp [Consumer.sampled, he, hpos])
      | true => exact .inr ⟨c, rfl, hpos, rfl, sampled_of_pos he hpos hpoll⟩

/-- At an edge of `clk_c` it uses, the consumer copies the slot its poll wants. -/
theorem copies_of_open (he : consumerInputs e = some c) (hpoll : (u.sampled s e).poll = some q)
    (hopen : q.out.length < Consumer.avail s.cfg q.p u.lastPos) :
    u.copies s e true = some ((u.lastPos + q.out.length) % s.cfg.slots) := by
  simp [Consumer.copies, Consumer.wanted, Consumer.slotAt, he, hpoll, hopen]

theorem copies_of_unused_edge : u.copies s e false = none := rfl

theorem take_of_poll (hpoll : u.poll = some q) (v : Byte) :
    u.take v = { u with poll := some { q with out := q.out ++ [v] } } := by
  simp [Consumer.take, hpoll]

/-- A poll with reads to make goes on. -/
theorem finish_of_open (hpoll : u.poll = some q) (hopen : q.out.length < Consumer.avail cfg q.p u.lastPos) :
    u.finish cfg = u := by
  simp [Consumer.finish, hpoll, hopen]

/-- A poll without reads to make is over. -/
theorem finish_of_done (hpoll : u.poll = some q) (hdone : Consumer.avail cfg q.p u.lastPos ≤ q.out.length) :
    u.finish cfg = { lastPos := q.p, poll := none, copied := u.copied ++ q.out } := by
  simp [Consumer.finish, hpoll, Nat.not_lt.mpr hdone]

end

/-! ### The block with its consumer at one event -/

section
variable {y : System} {s u : State} {e : Event} {c : CIn} {t : TIn} {copy : Bool} {slot a : Nat}

/-! Driving `rd_addr` changes that port alone. -/

@[simp] theorem noReset_driveAddress : noReset (driveAddress slot e) = noReset e := by cases e <;> rfl

theorem consumerInputs_driveAddress :
    consumerInputs (driveAddress slot e) = (consumerInputs e).map fun c => { c with rdAddr := slot } := by
  cases e <;> rfl

theorem driven_of_copy (h : y.consumer.copies y.block e copy = some slot) :
    y.driven e copy = driveAddress slot e := by
  simp [System.driven, h]

@[simp] theorem tickInputs_driven : tickInputs (y.driven e copy) = tickInputs e := by
  unfold System.driven
  split <;> simp

@[simp] theorem noReset_driven : noReset (y.driven e copy) = noReset e := by
  unfold System.driven
  split <;> simp

theorem consumerAfter_of_no_consumer_edge (he : consumerInputs e = none) (hreset : noReset e = true) :
    y.consumerAfter e copy u = y.consumer := by
  cases e with
  | clkT t => rfl
  | clkC c => cases he
  | both t c tFirst => cases he
  | reset => cases hreset

theorem consumerAfter_of_consumer_edge (he : consumerInputs e = some c) :
    y.consumerAfter e copy u = Consumer.finish y.block.cfg
      (if (y.consumer.copies y.block e copy).isSome then (y.consumer.sampled y.block e).take u.rdData
        else y.consumer.sampled y.block e) := by
  cases e with
  | clkT t => cases he
  | clkC c => rfl
  | both t c tFirst => rfl
  | reset => cases he

/-- At an edge it does not use for a read the consumer takes POS, if at all, and ends a poll with nothing to read. -/
theorem consumerAfter_of_no_copy (he : consumerInputs e = some c) (hcopy : y.consumer.copies y.block e copy = none) :
    y.consumerAfter e copy u = (y.consumer.sampled y.block e).finish y.block.cfg := by
  rw [consumerAfter_of_consumer_edge he, hcopy]
  rfl

theorem consumerAfter_of_copy (he : consumerInputs e = some c)
    (hcopy : y.consumer.copies y.block e copy = some slot) :
    y.consumerAfter e copy u = ((y.consumer.sampled y.block e).take u.rdData).finish y.block.cfg := by
  rw [consumerAfter_of_consumer_edge he, hcopy]
  rfl

theorem readSlot_of_sameBuffer (h : SameBuffer s u) (a : Nat) : readSlot u a = readSlot s a := by
  rw [readSlot, readSlot, h.cfg, h.mem]

/-- An edge of `clk_t` leaves every slot it does not write. -/
theorem clkTEdge_readSlot_of_not_written (hmem : Memory.wf s.cfg.memInit s.cfg.slots s.mem = true)
    (hother : writtenSlot (sampleT t s) ≠ some a) (hu : clkTEdge t s = .next u) : readSlot u a = readSlot s a := by
  rw [readSlot_of_sameBuffer (clkTEdge_sameBuffer hu), tickWrite]
  split
  case isFalse => rfl
  case isTrue hwrites =>
    obtain ⟨slot, hslot⟩ := Option.isSome_iff_exists.mp hwrites
    have hpos : slot = s.pos := eq_pos_of_writtenSlot (s := sampleT t s) hslot
    have hne : a ≠ s.pos := fun h => hother (by rw [hslot, hpos, h])
    rw [readSlot_ringWrite hmem, if_neg hne]

/-- The read of an event returns the slot as it was before the event, or any byte where the event's own edge of `clk_t`
writes the slot (20_memory R72). -/
theorem runEvent_rdData (hmem : Memory.wf s.cfg.memInit s.cfg.slots s.mem = true) (he : consumerInputs e = some c)
    (hu : runEvent e s = .next u) :
    u.rdData =
      if (tickInputs e).bind (fun t => writtenSlot (sampleT t s)) = some (slotOf s.cfg c.rdAddr) then c.junk
      else readSlot s (slotOf s.cfg c.rdAddr) := by
  cases edgesOf_runEvent hu with
  | clkT t hu' => cases he
  | clkC c hu' =>
    cases he
    exact clkCEdge_rdData hu'
  | tickFirst t c m hm hu' =>
    cases he
    obtain ⟨hcfg, -, -⟩ := clkTEdge_frame hm
    rw [clkCEdge_rdData hu', hcfg]
    by_cases hrace : writtenSlot (sampleT t s) = some (slotOf s.cfg c.rdAddr)
    · exact (portByte_of_race hrace).trans (if_pos hrace).symm
    · calc portByte (slotOf s.cfg c.rdAddr) (sampleC (writtenSlot (sampleT t s)) c m)
          = readSlot m (slotOf s.cfg c.rdAddr) := portByte_of_no_race hrace
        _ = readSlot s (slotOf s.cfg c.rdAddr) := clkTEdge_readSlot_of_not_written hmem hrace hm
        _ = _ := (if_neg hrace).symm
  | consumerFirst t c m hm hu' =>
    cases he
    obtain ⟨-, hrd, -⟩ := clkTEdge_frame hu'
    exact hrd.trans (clkCEdge_rdData hm)
  | reset hu' => cases he

/-- The byte a copy takes: the slot as it was before the event, or any byte where the event writes it. -/
theorem rdData_of_copy (hinv : Inv y.block) (he : consumerInputs e = some c)
    (hcopy : y.consumer.copies y.block e copy = some slot)
    (hu : runEvent (y.driven e copy) { y.block with edges := y.block.edges + 1 } = .next u) :
    u.rdData =
      if (tickInputs e).bind (fun t => writtenSlot (sampleT t y.block)) = some slot then c.junk
      else readSlot y.block slot := by
  have hslot : slotOf y.block.cfg slot = slot := by
    obtain ⟨-, -, q, -, -, rfl⟩ := copies_some hcopy
    exact Nat.mod_mod _ _
  have hinputs : consumerInputs (y.driven e copy) = some { c with rdAddr := slot } := by
    rw [driven_of_copy hcopy, consumerInputs_driveAddress, he, Option.map_some]
  rw [runEvent_rdData (s := { y.block with edges := y.block.edges + 1 }) hinv.widths.mem hinputs hu,
    tickInputs_driven, hslot]
  rfl

end

/-! ### A poll edge by edge (43_external_interfaces R214) -/

section
variable {y : System} {e : Event} {c : CIn} {q : Poll}

/-- A poll begins with POS, and is over at once with nothing to read. -/
theorem edge_begins_poll (hinv : Inv y.block) (he : consumerInputs e = some c) (hpos : c.readPos = true)
    (hpoll : y.consumer.poll = none) :
    ∃ z, y.edge e false = .next z ∧ z.consumer =
      if Consumer.avail y.block.cfg (posC y.block) y.consumer.lastPos = 0 then
        { y.consumer with lastPos := posC y.block }
      else { y.consumer with poll := some { p := posC y.block, out := [] } } := by
  obtain ⟨u, -, hz⟩ := edge_eq (e := e) (copy := false) hinv.cfg
  refine ⟨_, hz, ?_⟩
  have hafter : y.consumerAfter e false u = (y.consumer.sampled y.block e).finish y.block.cfg :=
    consumerAfter_of_no_copy he copies_of_unused_edge
  simp only [hafter, sampled_of_pos he hpos hpoll]
  split
  case isTrue hzero =>
    rw [finish_of_done rfl hzero.le, List.append_nil, ← hpoll]
  case isFalse hsome =>
    exact finish_of_open rfl (Nat.pos_of_ne_zero hsome)

/-- A used edge of `clk_c` is one RD, and the last of them ends the poll. -/
theorem edge_copies_slot (hinv : Inv y.block) (he : consumerInputs e = some c)
    (hpoll : (y.consumer.sampled y.block e).poll = some q)
    (hopen : q.out.length < Consumer.avail y.block.cfg q.p y.consumer.lastPos) :
    let slot := (y.consumer.lastPos + q.out.length) % y.block.cfg.slots
    ∃ z v, y.edge e true = .next z ∧
      (v = if (tickInputs e).bind (fun t => writtenSlot (sampleT t y.block)) = some slot then c.junk
        else readSlot y.block slot) ∧
      z.consumer =
        if q.out.length + 1 = Consumer.avail y.block.cfg q.p y.consumer.lastPos then
          { lastPos := q.p, poll := none, copied := y.consumer.copied ++ (q.out ++ [v]) }
        else { y.consumer with poll := some { q with out := q.out ++ [v] } } := by
  intro slot
  have hcopy : y.consumer.copies y.block e true = some slot :=
    copies_of_open he hpoll hopen
  obtain ⟨u, hu, hz⟩ := edge_eq (e := e) (copy := true) hinv.cfg
  refine ⟨_, u.rdData, hz, rdData_of_copy hinv he hcopy hu, ?_⟩
  simp only [consumerAfter_of_copy he hcopy, take_of_poll hpoll, sampled_lastPos, sampled_copied]
  split
  case isTrue hdone =>
    rw [finish_of_done rfl (by simp [hdone])]
  case isFalse hmore =>
    rw [finish_of_open rfl (by simp only [List.length_append, List.length_singleton]; omega)]

/-- A poll with reads to make waits for the consumer. -/
theorem edge_waits (hinv : Inv y.block) (hreset : noReset e = true) (hpoll : y.consumer.poll = some q)
    (hopen : q.out.length < Consumer.avail y.block.cfg q.p y.consumer.lastPos) :
    ∃ z, y.edge e false = .next z ∧ z.consumer = y.consumer := by
  obtain ⟨u, -, hz⟩ := edge_eq (e := e) (copy := false) hinv.cfg
  refine ⟨_, hz, ?_⟩
  cases he : consumerInputs e with
  | none => exact consumerAfter_of_no_consumer_edge he hreset
  | some c =>
    calc y.consumerAfter e false u
        = (y.consumer.sampled y.block e).finish y.block.cfg := consumerAfter_of_no_copy he copies_of_unused_edge
      _ = y.consumer := by rw [sampled_of_polling hpoll, finish_of_open hpoll hopen]

end

/-- Settles O59: the events of a poll one by one; an edge of `clk_t` and a reset answer by the definition of
`consumerAfter`. -/
theorem pollCopiesOneSlotPerEdge : Obligations.PollCopiesOneSlotPerEdge := by
  intro y hinv
  refine ⟨fun e c => edge_begins_poll hinv, fun e c q => edge_copies_slot hinv, fun e q => edge_waits hinv,
    fun t copy => ?_, fun copy => ?_⟩
  · obtain ⟨u, -, hz⟩ := edge_eq (e := .clkT t) (copy := copy) hinv.cfg
    exact ⟨_, hz, rfl⟩
  · obtain ⟨u, -, hz⟩ := edge_eq (e := .reset) (copy := copy) hinv.cfg
    exact ⟨_, hz, rfl⟩

/-! ### What an event writes (41_ring_buffer R140, R141) -/

section
variable {s u : State} {e : Event} {t : TIn} {written : List Sample} {h w a b : Nat}

/-- Two counts less than a lap apart have different slots. -/
theorem mod_ne_of_within_lap {n k m : Nat} (hn : 0 < n) (hlt : k < m) (hlap : m < k + n) : k % n ≠ m % n := by
  have hne : k % n ≠ (k % n + (m - k)) % n := ne_add_mod (Nat.mod_lt _ hn) (by omega) (by omega)
  rwa [Nat.mod_add_mod, Nat.add_sub_cancel' hlt.le] at hne

theorem two_le_slots {c : Config} (hc : c.wf = true) : 2 ≤ c.slots := by
  obtain ⟨haw, -⟩ := (Config.wf_iff c).mp hc
  exact Nat.pow_le_pow_right two_pos haw

theorem writtenBy_of_no_tick (ht : tickInputs e = none) : writtenBy s e = [] := by simp [writtenBy, ht]

theorem writtenBy_of_written {slot : Nat} (ht : tickInputs e = some t) (hslot : writtenSlot (sampleT t s) = some slot) :
    (writtenBy s e).length = 1 := by
  simp [writtenBy, ht, hslot]

theorem writtenBy_length_le_one (s : State) (e : Event) : (writtenBy s e).length ≤ 1 := by
  unfold writtenBy
  split
  · split <;> simp
  · simp

theorem tickWrite_eq_ringWrites (ht : tickInputs e = some t) : tickWrite t s = ringWrites (writtenBy s e) s := by
  simp only [tickWrite, writtenBy, ht]
  split <;> rfl

/-- To the ring an event that is no reset is its writes. -/
theorem runEvent_ringWrites (he : noReset e = true) (hu : runEvent e s = .next u) :
    u.pos = (ringWrites (writtenBy s e) s).pos ∧
      ∀ slot, readSlot u slot = readSlot (ringWrites (writtenBy s e) s) slot := by
  cases ht : tickInputs e with
  | none =>
    rw [writtenBy_of_no_tick ht, ringWrites_nil]
    have hsame := runEvent_of_no_tick ht he hu
    have hread := readSlot_of_sameTickDomain hsame
    obtain ⟨-, -, -, -, -, -, -, -, -, hpos, -, -⟩ := hsame
    exact ⟨hpos, hread⟩
  | some t =>
    obtain ⟨v, hv, hsame⟩ := runEvent_of_tick ht hu
    have hbuffer := clkTEdge_sameBuffer hv
    rw [tickWrite_eq_ringWrites ht] at hbuffer
    have hread := readSlot_of_sameTickDomain hsame
    obtain ⟨-, -, -, -, -, -, -, -, -, hpos, -, -⟩ := hsame
    exact ⟨hpos.trans hbuffer.pos, fun slot => (hread slot).trans (readSlot_of_sameBuffer hbuffer slot)⟩

/-- An event keeps the most recent `N` samples in the ring (41_ring_buffer R141, R142). -/
theorem holdsTheLatest_runEvent (hinv : Inv s) (hpos : s.pos = written.length % s.cfg.slots)
    (hring : HoldsTheLatest s written) (he : noReset e = true) (hu : runEvent e s = .next u) :
    HoldsTheLatest u (written ++ writtenBy s e) := by
  intro k v hk hlap
  obtain ⟨-, hread⟩ := runEvent_ringWrites he hu
  obtain ⟨hcfg, -⟩ := runEvent_cfg_schedule hu
  rw [hcfg, List.length_append] at hlap
  rw [hread, hcfg]
  rcases Nat.lt_or_ge k written.length with hold | hnew
  · rw [List.getElem?_append_left hold] at hk
    have hkept := readSlot_ringWrites_of_not_reached (vs := writtenBy s e) (a := k % s.cfg.slots)
      hinv.widths.pos hinv.widths.mem fun j hj => by
        rw [hpos, Nat.mod_add_mod]
        exact mod_ne_of_within_lap (slots_pos _) (by omega) (by omega)
    rw [hkept]
    exact hring k v hk (by omega)
  · rw [List.getElem?_append_right hnew] at hk
    have hstored := readSlot_ringWrites_of_last_lap hinv.widths.pos hinv.widths.mem hk (by omega)
    rwa [hpos, Nat.mod_add_mod, Nat.add_sub_cancel' hnew] at hstored

/-- The crossing's count of writes grows by the event's writes: of the counts the crossing allows, it alone has the
cursor's residue, as a ring has two slots at least. -/
theorem crossing_runEvent_writes (hinv : Inv s) (x : Crossing s h w a b) (he : noReset e = true)
    (hu : runEvent e s = .next u) :
    ∃ h' a' b', Crossing u h' (w + (writtenBy s e).length) a' b' ∧ b ≤ b' := by
  obtain ⟨h', w', a', b', x', -, hlo, hhi, -, hb, -⟩ := crossing_runEvent x (by rintro rfl; cases he) hu
  obtain ⟨hcfg, -⟩ := runEvent_cfg_schedule hu
  obtain ⟨hpos, -⟩ := runEvent_ringWrites he hu
  have hresidue : w' % s.cfg.slots = (w + (writtenBy s e).length) % s.cfg.slots := by
    rw [← hcfg, ← x'.pos, hpos, ringWrites_pos _ hinv.widths.pos, x.pos, Nat.mod_add_mod, hcfg]
  have hone := writtenBy_length_le_one s e
  have htwo := two_le_slots hinv.cfg
  have hcount : w' = w + (writtenBy s e).length := by
    rcases Nat.lt_trichotomy w' (w + (writtenBy s e).length) with hlt | heq | hgt
    · exact absurd hresidue (mod_ne_of_within_lap (slots_pos _) hlt (by omega))
    · exact heq
    · exact absurd hresidue.symm (mod_ne_of_within_lap (slots_pos _) hgt (by omega))
  exact ⟨h', a', b', hcount ▸ x', hb⟩

end

/-! ### The counts a safe consumer keeps (43_external_interfaces R215) -/

/-- The consumer's half of `LossFree`, save that a poll may have made its last read and not have ended: what holds of
the consumer also between the parts of an event. -/
structure Following (c : Config) (u : Consumer) (written : List Sample) (b taken : Nat) : Prop where
  lastPos : u.lastPos = taken % c.slots
  shown : taken ≤ b
  copied : u.copied = written.take taken
  poll : ∀ q, u.poll = some q →
    ∃ p, q.p = p % c.slots ∧ p ≤ b ∧ p < taken + c.slots ∧ taken + q.out.length ≤ p ∧
      q.out = (written.drop taken).take q.out.length

/-- A poll in progress has reads to make. -/
def PollOpen (c : Config) (u : Consumer) : Prop :=
  ∀ q, u.poll = some q → q.out.length < Consumer.avail c q.p u.lastPos

section
variable {c : Config} {u : Consumer} {q : Poll} {written : List Sample} {h a b taken : Nat}

/-- In the counts, `avail` is what lies between the polls. -/
theorem following_avail (f : Following c u written b taken) (hpoll : u.poll = some q) :
    ∃ p, q.p = p % c.slots ∧ p ≤ b ∧ p < taken + c.slots ∧ taken + q.out.length ≤ p ∧
      q.out = (written.drop taken).take q.out.length ∧ Consumer.avail c q.p u.lastPos = p - taken := by
  obtain ⟨p, hp, hb, hlap, hle, hout⟩ := f.poll q hpoll
  exact ⟨p, hp, hb, hlap, hle, hout, by rw [hp, f.lastPos, avail_of_counts (by omega) hlap]⟩

/-- `LossFree` is the crossing and the ring on the block's side, and on the consumer's the counts with no poll that is
over. -/
theorem lossFree_iff {y : System} : LossFree y written h a b taken ↔
    Crossing y.block h written.length a b ∧ HoldsTheLatest y.block written ∧
      Following y.block.cfg y.consumer written b taken ∧ PollOpen y.block.cfg y.consumer := by
  constructor
  · intro x
    have f : Following y.block.cfg y.consumer written b taken :=
      { x with
        poll := fun q hq => by
          obtain ⟨p, hp, hb, hlap, hlt, hout⟩ := x.poll q hq
          exact ⟨p, hp, hb, hlap, hlt.le, hout⟩ }
    refine ⟨x.crossing, x.ring, f, fun q hq => ?_⟩
    obtain ⟨p, hp, -, hlap, hlt, -⟩ := x.poll q hq
    rw [hp, x.lastPos, avail_of_counts (by omega) hlap]
    omega
  · rintro ⟨hcrossing, hring, f, hopen⟩
    exact
      { f with
        crossing := hcrossing
        ring := hring
        poll := fun q hq => by
          obtain ⟨p, hp, hb, hlap, -, hout, havail⟩ := following_avail f hq
          have hlt := hopen q hq
          exact ⟨p, hp, hb, hlap, by omega, hout⟩ }

/-- Later writes and a fresher `pos_c` take nothing from the counts. -/
theorem following_mono {b' : Nat} (f : Following c u written b taken) (hb : b ≤ b') (hshown : b ≤ written.length)
    (vs : List Sample) : Following c u (written ++ vs) b' taken where
  lastPos := f.lastPos
  shown := f.shown.trans hb
  copied := by rw [List.take_append_of_le_length (f.shown.trans hshown), f.copied]
  poll q hq := by
    obtain ⟨p, hp, hpb, hlap, hle, hout⟩ := f.poll q hq
    refine ⟨p, hp, hpb.trans hb, hlap, hle, ?_⟩
    rw [List.drop_append_of_le_length (by omega), List.take_append_of_le_length (by rw [List.length_drop]; omega)]
    exact hout

/-- A poll that keeps the cadence begins at the count `pos_c` shows, less than a lap on. -/
theorem following_sampled {s : State} {e : Event} (x : Crossing s h written.length a b)
    (f : Following s.cfg u written b taken)
    (hcadence : ∀ c, consumerInputs e = some c → c.readPos = true → u.poll = none →
      b ≤ taken + (s.cfg.slots - 1)) :
    Following s.cfg (u.sampled s e) written b taken := by
  rcases sampled_cases s e u with hsame | ⟨c, he, hpos, hpoll, hbegun⟩
  · rwa [hsame]
  · have hlap := hcadence c he hpos hpoll
    have hslots := slots_pos s.cfg
    rw [hbegun]
    exact
      { f with
        poll := fun q hq => by
          cases hq
          exact ⟨b, crossing_posC_eq x, le_rfl, by omega, f.shown, rfl⟩ }

/-- A read of the sample that is next keeps the counts. -/
theorem following_take {v : Byte} (f : Following c u written b taken) (hpoll : u.poll = some q)
    (hopen : q.out.length < Consumer.avail c q.p u.lastPos) (hv : written[taken + q.out.length]? = some v) :
    Following c (u.take v) written b taken := by
  obtain ⟨p, hp, hb, hlap, -, hout, havail⟩ := following_avail f hpoll
  rw [take_of_poll hpoll]
  exact
    { f with
      poll := fun q' hq' => by
        cases hq'
        refine ⟨p, hp, hb, hlap, by rw [List.length_append, List.length_singleton]; omega, ?_⟩
        rw [List.length_append, List.length_singleton, List.take_add_one, List.getElem?_drop, hv, ← hout]
        rfl }

/-- The end of a poll adds what it copied to what was copied before, and leaves no poll that is over. -/
theorem following_finish (f : Following c u written b taken) :
    ∃ taken', taken ≤ taken' ∧ Following c (u.finish c) written b taken' ∧ PollOpen c (u.finish c) := by
  rcases finish_cases c u with ⟨hopen, hsame⟩ | ⟨q, hpoll, hdone, hended⟩
  · rw [hsame]
    refine ⟨taken, le_rfl, f, fun q hq => ?_⟩
    rcases hopen with hnone | ⟨q', hq', hlt⟩
    · rw [hnone] at hq
      cases hq
    · rw [hq'] at hq
      cases hq
      exact hlt
  · obtain ⟨p, hp, hb, -, hle, hout, havail⟩ := following_avail f hpoll
    have hend : p = taken + q.out.length := by omega
    rw [hended]
    exact ⟨p, by omega,
      { lastPos := hp
        shown := hb
        copied := by rw [hend, List.take_add, ← hout, f.copied]
        poll := nofun }, nofun⟩

end

/-! ### One event of the block with a safe consumer (43_external_interfaces R215) -/

section
variable {y : System} {e : Event} {u : State} {copy : Bool} {written : List Sample} {h a b taken slot : Nat}

/-- The slot a safe consumer copies holds a sample already written, and fewer than `N` writes follow that one by the
end of the event. -/
theorem copy_in_last_lap (x : LossFree y written h a b taken)
    (hsafe : SafeMove y e copy (written ++ writtenBy y.block e).length taken b)
    (hcopy : y.consumer.copies y.block e copy = some slot) :
    ∃ q, (y.consumer.sampled y.block e).poll = some q ∧
      q.out.length < Consumer.avail y.block.cfg q.p y.consumer.lastPos ∧
      slot = (taken + q.out.length) % y.block.cfg.slots ∧ taken + q.out.length < written.length ∧
      written.length + (writtenBy y.block e).length ≤ taken + q.out.length + y.block.cfg.slots := by
  obtain ⟨hcrossing, -, f, -⟩ := lossFree_iff.mp x
  obtain ⟨-, -, q, hpoll, hopen, hslot⟩ := copies_some hcopy
  have fs := following_sampled hcrossing f hsafe.cadence
  obtain ⟨p, -, hb, -, -, -, havail⟩ := following_avail fs hpoll
  rw [sampled_lastPos] at havail
  have hpace := hsafe.pace q hpoll (by rw [hcopy]; rfl)
  rw [List.length_append] at hpace
  have hlap := avail_lt y.block.cfg q.p y.consumer.lastPos
  have hba := hcrossing.order_ba
  have hah := hcrossing.order_ah
  have hhw := hcrossing.order_hw
  exact ⟨q, hpoll, hopen, by rw [hslot, f.lastPos, Nat.mod_add_mod], by omega, by omega⟩

/-- A safe consumer meets no collision: the slot of the count `written.length` is not that of a count less than a lap
before. -/
theorem no_collision (x : LossFree y written h a b taken)
    (hsafe : SafeMove y e copy (written ++ writtenBy y.block e).length taken b)
    (hcopy : y.consumer.copies y.block e copy = some slot) {t : TIn} (ht : tickInputs e = some t) :
    writtenSlot (sampleT t y.block) ≠ some slot := by
  intro hwritten
  obtain ⟨q, -, -, hslot, hbefore, hafter⟩ := copy_in_last_lap x hsafe hcopy
  rw [writtenBy_of_written ht hwritten] at hafter
  have hpos : slot = written.length % y.block.cfg.slots := (eq_pos_of_writtenSlot hwritten).trans x.crossing.pos
  exact mod_ne_of_within_lap (slots_pos _) hbefore (by omega) (hslot.symm.trans hpos)

/-- The byte a safe consumer copies is the sample written at its count. -/
theorem copied_sample (hinv : Inv y.block) (x : LossFree y written h a b taken)
    (hsafe : SafeMove y e copy (written ++ writtenBy y.block e).length taken b) {c : CIn}
    (he : consumerInputs e = some c) (hcopy : y.consumer.copies y.block e copy = some slot)
    (hu : runEvent (y.driven e copy) { y.block with edges := y.block.edges + 1 } = .next u) :
    ∃ q, (y.consumer.sampled y.block e).poll = some q ∧
      q.out.length < Consumer.avail y.block.cfg q.p y.consumer.lastPos ∧
      written[taken + q.out.length]? = some u.rdData := by
  obtain ⟨q, hpoll, hopen, hslot, hbefore, hafter⟩ := copy_in_last_lap x hsafe hcopy
  refine ⟨q, hpoll, hopen, ?_⟩
  have hno : (tickInputs e).bind (fun t => writtenSlot (sampleT t y.block)) ≠ some slot := fun hrace => by
    obtain ⟨t, ht, hwritten⟩ := Option.bind_eq_some_iff.mp hrace
    exact no_collision x hsafe hcopy ht hwritten
  have hsample : written[taken + q.out.length]? = some written[taken + q.out.length] :=
    List.getElem?_eq_getElem hbefore
  rw [rdData_of_copy hinv he hcopy hu, if_neg hno, hslot, hsample, x.ring _ _ hsample (by omega)]

/-- The consumer's part of an event keeps the counts, against what was written before the event. -/
theorem following_consumerAfter (hinv : Inv y.block) (x : LossFree y written h a b taken) (hreset : noReset e = true)
    (hsafe : SafeMove y e copy (written ++ writtenBy y.block e).length taken b)
    (hu : runEvent (y.driven e copy) { y.block with edges := y.block.edges + 1 } = .next u) :
    ∃ taken', taken ≤ taken' ∧ Following y.block.cfg (y.consumerAfter e copy u) written b taken' ∧
      PollOpen y.block.cfg (y.consumerAfter e copy u) := by
  obtain ⟨hcrossing, -, f, hopen⟩ := lossFree_iff.mp x
  cases he : consumerInputs e with
  | none =>
    rw [consumerAfter_of_no_consumer_edge he hreset]
    exact ⟨taken, le_rfl, f, hopen⟩
  | some c =>
    have fs := following_sampled hcrossing f hsafe.cadence
    cases hcopy : y.consumer.copies y.block e copy with
    | none =>
      rw [consumerAfter_of_no_copy he hcopy]
      exact following_finish fs
    | some slot =>
      obtain ⟨q, hpoll, hlt, hsample⟩ := copied_sample hinv x hsafe he hcopy hu
      rw [consumerAfter_of_copy he hcopy]
      exact following_finish (following_take fs hpoll (by rwa [sampled_lastPos]) hsample)

theorem writtenBy_driven :
    writtenBy { y.block with edges := y.block.edges + 1 } (y.driven e copy) = writtenBy y.block e := by
  simp only [writtenBy, tickInputs_driven]
  rfl

end

/-- Settles O60: the block's side by the event's writes, the consumer's by its parts of the event, and the collision
excluded by the pace. -/
theorem safeConsumerLosesNothing : Obligations.SafeConsumerLosesNothing := by
  intro y z e copy written h a b taken hinv x hreset hsafe hz
  obtain ⟨u, hu, hanswer⟩ := edge_eq (e := e) (copy := copy) hinv.cfg
  cases hz.symm.trans hanswer
  obtain ⟨hcrossing, hring, -, -⟩ := lossFree_iff.mp x
  have hreset' : noReset (y.driven e copy) = true := noReset_driven.trans hreset
  have hinv' : Inv { y.block with edges := y.block.edges + 1 } := inv_of_view hinv rfl
  have hcrossing' : Crossing { y.block with edges := y.block.edges + 1 } h written.length a b := { hcrossing with }
  obtain ⟨h', a', b', xu, hb⟩ := crossing_runEvent_writes hinv' hcrossing' hreset' hu
  have hringu := holdsTheLatest_runEvent hinv' hcrossing.pos hring hreset' hu
  rw [writtenBy_driven] at xu hringu
  rw [← List.length_append] at xu
  obtain ⟨taken', htaken, f, hopen⟩ := following_consumerAfter hinv x hreset hsafe hu
  have hshown : b ≤ written.length := hcrossing.order_ba.trans (hcrossing.order_ah.trans hcrossing.order_hw)
  obtain ⟨hcfg, -⟩ := runEvent_cfg_schedule hu
  have xz : LossFree { block := u, consumer := y.consumerAfter e copy u } (written ++ writtenBy y.block e) h' a' b'
      taken' := by
    refine lossFree_iff.mpr ⟨xu, hringu, ?_, ?_⟩
    · rw [hcfg]
      exact following_mono f hb hshown _
    · rw [hcfg]
      exact hopen
  refine ⟨h', a', b', taken', xz, hb, htaken, fun hcopies t ht => ?_⟩
  obtain ⟨slot, hcopy⟩ := Option.isSome_iff_exists.mp hcopies
  rw [hcopy]
  exact no_collision x hsafe hcopy ht

end Sys2Proof.Machine
end

-- ==== Proofs of 60_exceptions: no step fails, and what a tick without an answer keeps ====
section
/-! The statements drawn from 60_exceptions. That no error halts the block is that every event answers. A tick that gets
no answer is a condition which every edge of `clk_t` without `bus_done` carries on, so it lasts over any run of such
edges. -/

namespace Sys2Proof.Machine

open Sys2Proof.Safety

/-- Settles O49: a step refuses nothing but a configuration, and every event answers. -/
theorem noErrorHaltsTheBlock : Obligations.NoErrorHaltsTheBlock := fun _ hc => step_answers hc

/-! ### A tick without an answer (60_exceptions R249) -/

/-- A tick is in flight, and a STOP is pending where the timer is Idle (I2 of 10_state R42): no START can arm the timer
again before the answer comes. -/
structure TickInFlight (s : State) : Prop where
  exch : s.seq = .exch
  pendingWhereIdle : s.run = .idle → s.stopPend = true

section
variable {s u : State} {t : TIn}

theorem tickInFlight_of_sameTickDomain (h : SameTickDomain s u) (hflight : TickInFlight s) : TickInFlight u := by
  obtain ⟨-, -, hrun, -, hseq, hpend, -⟩ := h
  exact ⟨hseq.trans hflight.exch, fun hidle => hpend.trans (hflight.pendingWhereIdle (hrun.symm.trans hidle))⟩

theorem complete_of_unanswered (hdone : s.inp.t.busDone = false) : complete s = false := by simp [complete, hdone]

/-- A timer that is Idle behind a pending STOP is not started. -/
theorem startsFromIdle_of_pendingWhereIdle (h : s.run = .idle → s.stopPend = true) : startsFromIdle s = false := by
  cases hrun : s.run with
  | running => simp [startsFromIdle, hrun]
  | idle => simp [startsFromIdle, isStart_of_pending (h hrun)]

theorem clkTEdge_ctlRespValid (hu : clkTEdge t s = .next u) :
    u.ctlRespValid = (isStart (sampleT t s) || stopAnswered (sampleT t s)) :=
  congrArg Registers.ctlRespValid (registers_clkTEdge hu)

/-- An edge that ends no tick and starts no timer leaves the ring, its cursor and the deadline. -/
theorem sameRing_clkTEdge (hcomplete : complete (sampleT t s) = false) (hstart : startsFromIdle (sampleT t s) = false)
    (hu : clkTEdge t s = .next u) : SameRing s u := by
  have hbuffer := clkTEdge_sameBuffer hu
  rw [tickWrite_of_not_written (by simp [writtenSlot, hcomplete])] at hbuffer
  have hdeadline : u.deadline = (tickDomainNext (sampleT t s)).deadline :=
    congrArg Registers.deadline (registers_clkTEdge hu)
  refine ⟨hbuffer.pos, hbuffer.posGray, hbuffer.mem, hdeadline.trans ?_⟩
  simp [tickDomainNext, hcomplete, hstart]

/-- Without an answer the tick stays in flight: a STOP accepted meanwhile leaves the timer Idle and becomes pending. -/
theorem tickInFlight_clkTEdge (hflight : TickInFlight s) (hdone : t.busDone = false) (hu : clkTEdge t s = .next u) :
    TickInFlight u := by
  have hcomplete : complete (sampleT t s) = false := complete_of_unanswered hdone
  have hfly : inFlight (sampleT t s) = true := inFlight_iff.mpr ⟨hflight.exch, hdone⟩
  constructor
  · simp [clkTEdge_seq hu, hcomplete, hflight.exch]
  · intro hidle
    rw [clkTEdge_run hu] at hidle
    rw [clkTEdge_stopPend hu, hcomplete]
    cases hrun : s.run with
    | idle => simp [hflight.pendingWhereIdle hrun]
    | running =>
      have hstop : isStop (sampleT t s) = true := by simpa [hrun] using hidle
      simp [hstop, hfly]

/-- A pending STOP stays pending at an edge without an answer, and no response is given. -/
theorem pendingStop_clkTEdge (hpend : s.stopPend = true) (hdone : t.busDone = false) (hu : clkTEdge t s = .next u) :
    u.stopPend = true ∧ u.ctlRespValid = false := by
  have hcomplete : complete (sampleT t s) = false := complete_of_unanswered hdone
  have hstart : isStart (sampleT t s) = false := isStart_of_pending hpend
  have hstop : isStop (sampleT t s) = false := isStop_of_pending hpend
  rw [clkTEdge_stopPend hu, clkTEdge_ctlRespValid hu, stopAnswered]
  simp [hcomplete, hstart, hstop, hpend]

end

/-- The state `v` is `j` edges of `clk_t` after `s` with the same tick in flight, and a STOP pending at `s` still has no
answer. -/
structure StillInFlight (s : State) (j : Nat) (v : State) : Prop where
  flight : TickInFlight v
  cfg : v.cfg = s.cfg
  now : v.now = (s.now + j) % 2 ^ s.cfg.tw
  ring : SameRing s v
  pending : s.stopPend = true → v.stopPend = true
  noResponse : s.stopPend = true → s.ctlRespValid = false → v.ctlRespValid = false

theorem stillInFlight_zero {s : State} (hinv : Inv s) (hexch : s.seq = .exch) : StillInFlight s 0 s where
  flight := ⟨hexch, fun hidle => hinv.consistent.i2 hidle hexch⟩
  cfg := rfl
  now := (Nat.mod_eq_of_lt hinv.widths.now).symm
  ring := sameRing_refl s
  pending := id
  noResponse := fun _ hnone => hnone

/-- Edges without an answer carry the tick in flight. -/
theorem carriedBy_stillInFlight {train : List TIn} (hnone : ∀ t ∈ train, t.busDone = false) (s : State) :
    CarriedBy train (StillInFlight s) where
  tickDomainOnly := by
    intro j v w hsame x
    have hflight := tickInFlight_of_sameTickDomain hsame x.flight
    have hring := sameRing_trans x.ring (sameRing_of_sameTickDomain hsame)
    obtain ⟨hcfg, hnow, -, -, -, hpend, -, hvalid, -⟩ := hsame
    exact ⟨hflight, hcfg.trans x.cfg, hnow.trans x.now, hring, fun h => hpend.trans (x.pending h),
      fun h hr => hvalid.trans (x.noResponse h hr)⟩
  edge := by
    intro j t v w hj hw x
    have hdone := hnone t (List.mem_of_getElem? hj)
    have hring : SameRing v w := sameRing_clkTEdge (complete_of_unanswered hdone)
      (startsFromIdle_of_pendingWhereIdle x.flight.pendingWhereIdle) hw
    have hstop := fun h => pendingStop_clkTEdge (x.pending h) hdone hw
    have hnow : w.now = (s.now + (j + 1)) % 2 ^ s.cfg.tw := by
      rw [clkTEdge_now hw, x.cfg, x.now, Nat.mod_add_mod, Nat.add_assoc]
    exact ⟨tickInFlight_clkTEdge x.flight hdone hw, (clkTEdge_cfg_schedule hw).1.trans x.cfg, hnow,
      sameRing_trans x.ring hring, fun h => (hstop h).1, fun h _ => (hstop h).2⟩

/-- Settles O55: a run without an answer carries the tick in flight to its end, and a pending STOP holds `ctl_ready`
at 0. -/
theorem unansweredTickStaysInFlight : Obligations.UnansweredTickStaysInFlight := by
  intro es rest s hinv hexch hsched hreset hnone
  obtain ⟨v, hv, -, x⟩ := runFor_tickTrain_end hinv.cfg hsched hreset (carriedBy_stillInFlight hnone s)
    (stillInFlight_zero hinv hexch)
  have hready : s.stopPend = true → ctlReady v = false := fun h => by simp [ctlReady, x.pending h]
  exact ⟨v, hv, x.flight.exch, x.ring, x.now, fun h => ⟨x.pending h, hready h, x.noResponse h⟩⟩

end Sys2Proof.Machine
end

-- ==== Proofs of 70_reset_and_hazards: a reset at any time ====
section
/-! The statement drawn from 70_reset_and_hazards. What a reset answers looks at the parameters and at what the
environment still has to do, and at no register: so it forgets a tick in flight and a deferred STOP. -/

namespace Sys2Proof.Machine

/-- The event of a reset (70_reset_and_hazards R260): of the state it finds, only the parameters and the environment's
part remain. -/
theorem runEvent_reset (s : State) :
    runEvent .reset s = .next { State.resetOf s.cfg with schedule := s.schedule, edges := s.edges } := rfl

/-- Settles O47: the step takes the reset from the schedule and runs it. -/
theorem resetEvent : Obligations.ResetEvent := by
  intro s rest hc hsched
  calc step s
      = runEvent .reset { s with schedule := rest, edges := s.edges + 1 } := step_scheduled hc hsched
    _ = .next { State.resetOf s.cfg with schedule := rest, edges := s.edges + 1 } := runEvent_reset _

end Sys2Proof.Machine
end
